-- ==== Sys2Proof/Word.lean ====
section
/-! DEFINITION. The widths of the core's values (spec/00_scope.md R4). Bit 0 is the least significant
bit (00_scope.md section 5, decision D14); every register is an unsigned value of its width. -/

namespace Sys2Proof

/-- An 8-bit value: PC, ASR, uPC, uSP, LC, a jump-table entry (R4). -/
abbrev Byte := BitVec 8

/-- A 16-bit value: the bus, AR, HR, GR0..GR3, IR, a program-memory cell (R4). -/
abbrev Word := BitVec 16

/-- A 32-bit value: a control-store cell, and the pair AR:HR (R4, R14). -/
abbrev Word32 := BitVec 32

end Sys2Proof
end

