-- ==== Sys2Proof/Machine/Flags.lean ====
section
/-! DEFINITION. Every flag computation of the spec: the ALU's Z, N, C and O (spec/43_alu.md R135, R148, R149)
and the loop flag L (42_writeback_control.md R125). None is the conventional 16-bit carry or overflow, and
none may be "corrected" (R149). -/

namespace Sys2Proof.Machine

/-- `Z' = (r == 0)` of a 16-bit result (R148). -/
def flagZ (r : Word) : Bool := r == 0#16

/-- `N' = (r[15] == 1)` of a 16-bit result (R148). -/
def flagN (r : Word) : Bool := r.getLsbD 15

/-- `Z' = (v == 0)` over the 32-bit shifted pair (R141, D10; log entry 13). -/
def flagZ32 (v : Word32) : Bool := v == 0#32

/-- `N' = (v[31] == 1)` over the 32-bit shifted pair (R141). -/
def flagN32 (v : Word32) : Bool := v.getLsbD 31

/-- C of codes 4 and 5: `s16(r) <= s16(AR)`, both read as two's complement (R135, D20; log entry 14). -/
def flagCAdd (ar r : Word) : Bool := r.sle ar

/-- O of code 4: `bus[7] == r[7]` and `AR[7] != r[7]` (R135). -/
def flagOAdd (ar bus r : Word) : Bool :=
  (bus.getLsbD 7 == r.getLsbD 7) && (ar.getLsbD 7 != r.getLsbD 7)

/-- C of the left-moving codes 9, 10, 14: the OLD bit 7 of AR (R149). -/
def flagCLeft (ar : Word) : Bool := ar.getLsbD 7

/-- C of the right-moving codes and of code 15: an old bit 0 (R149). -/
def flagCBit0 (v : Word) : Bool := v.getLsbD 0

/-- `L' = (LC' == 0)` (R125). -/
def flagL (lc : Byte) : Bool := lc == 0#8

end Sys2Proof.Machine
end

