-- ==== Sys2Proof/Syntax.lean ====
section
/-! DEFINITION. The syntax of a microinstruction (spec/30_encoding.md R60 to R72): the seven field groups,
one code from each, and the 7-bit address ADR.

R69: the opcode table has one row per FIELD CODE (56 rows), and a word matches one row of each group.
`Micro` is a whole microinstruction, one code from each group. `Instr` has one constructor per row: the
row's code is the constructor, the word's other fields are its argument (`AluCtx` ... `SeqCtx`, each
`Micro` less one field). So an `Instr` is a row together with the rest of its word, and it determines the
whole microinstruction, `Instr.micro` (log entry 16). -/

namespace Sys2Proof

/-- The ALU field, w[24:21]: its codes in order from 0 (R69; 43_alu.md). -/
inductive AluCode where
  | nop  -- 0: AR unchanged (R131)
  | ld  -- 1: AR <- bus (R132)
  | ldn  -- 2: AR <- not bus (R133)
  | clr  -- 3: AR <- 0 (R134)
  | add  -- 4: AR <- AR + bus, flags Z N C O (R135)
  | addk  -- 5: AR <- AR + bus, flags Z N C (R136)
  | and  -- 6: AR <- AR and bus (R137)
  | or  -- 7: AR <- AR or bus (R138)
  | addq  -- 8: AR <- AR + bus, no flags (R139)
  | lsl  -- 9: AR shifted left 1 (R140)
  | lsl32  -- 10: AR:HR shifted left 1 (R141)
  | asr  -- 11: AR arithmetic shifted right 1 (R142)
  | asr32  -- 12: AR:HR arithmetic shifted right 1 (R143)
  | lsr  -- 13: AR logical shifted right 1 (R144)
  | rol  -- 14: AR rotated left 1 (R145)
  | rol32  -- 15: AR <- low half of AR:HR rotated left 1 (R146)
  deriving DecidableEq, Repr

/-- The TB field, w[20:18]: its codes in order from 0 (R69; 41_bus_source.md). -/
inductive TbCode where
  | ones  -- 0: 0xFFFF (R100)
  | ir  -- 1: IR (R101)
  | pm  -- 2: PM[ASR] (R102)
  | pc  -- 3: PC zero-extended (R103)
  | ar  -- 4: AR (R104)
  | hr  -- 5: HR (R105)
  | gr  -- 6: GR[sel] (R106)
  | lit  -- 7: LIT16, literal mode (R107)
  deriving DecidableEq, Repr

/-- The FB field, w[17:15]: its codes in order from 0 (R69; 42_writeback_control.md). -/
inductive FbCode where
  | none  -- 0: no destination (R111)
  | ir  -- 1: IR (R112)
  | pm  -- 2: PM[ASR] (R113)
  | pc  -- 3: PC (R114)
  | rsv  -- 4: reserved, no destination (R115)
  | hr  -- 5: HR (R116)
  | gr  -- 6: GR[sel] (R117)
  | asr  -- 7: ASR (R118)
  deriving DecidableEq, Repr

/-- The S field, w[14]: its codes in order from 0 (R69; 40_cycle_decode.md). -/
inductive SCode where
  | grx  -- 0: sel = GRx (R88)
  | m  -- 1: sel = M (R89)
  deriving DecidableEq, Repr

/-- The P field, w[13]: its codes in order from 0 (R69; 42_writeback_control.md). -/
inductive PCode where
  | hold  -- 0: PC kept (R126)
  | inc  -- 1: PC + 1 (R119)
  deriving DecidableEq, Repr

/-- The LC field, w[12:11]: its codes in order from 0 (R69; 42_writeback_control.md). -/
inductive LcCode where
  | hold  -- 0: LC kept (R121)
  | dec  -- 1: LC - 1 (R122)
  | bus  -- 2: LC <- bus[7:0] (R123)
  | imm  -- 3: LC <- IMM8 (R124)
  deriving DecidableEq, Repr

/-- The SEQ field, w[10:7]: its codes in order from 0 (R69; 44_sequencer.md). -/
inductive SeqCode where
  | next  -- 0: uPC + 1 (R161)
  | k1  -- 1: K1[OP] (R162)
  | k2  -- 2: K2[M] (R163)
  | zero  -- 3: 0 (R164)
  | jnz  -- 4: ADR if not Z (R165)
  | jmp  -- 5: ADR (R166)
  | call  -- 6: ADR, uSP <- uPC (R167)
  | ret  -- 7: uSP (R168)
  | jz  -- 8: ADR if Z (R169)
  | jn  -- 9: ADR if N (R170)
  | jc  -- 10: ADR if C (R171)
  | jo  -- 11: ADR if O (R172)
  | jl  -- 12: ADR if L (R173)
  | jnc  -- 13: ADR if not C (R174)
  | jno  -- 14: ADR if not O (R175)
  | halt  -- 15: 0, halted <- true (R176)
  deriving DecidableEq, Repr

/-- A whole microinstruction: one code from each of the seven fields, and ADR (R61, R69). The unused bits
31:25 are not kept (R67). -/
structure Micro where
  alu : AluCode
  tb : TbCode
  fb : FbCode
  s : SCode
  p : PCode
  lc : LcCode
  seq : SeqCode
  adr : BitVec 7
  deriving DecidableEq, Repr

/-- The fields of a microinstruction other than ALU: the operand of an ALU row. -/
structure AluCtx where
  tb : TbCode
  fb : FbCode
  s : SCode
  p : PCode
  lc : LcCode
  seq : SeqCode
  adr : BitVec 7
  deriving DecidableEq, Repr

/-- The fields of a microinstruction other than TB: the operand of an TB row. -/
structure TbCtx where
  alu : AluCode
  fb : FbCode
  s : SCode
  p : PCode
  lc : LcCode
  seq : SeqCode
  adr : BitVec 7
  deriving DecidableEq, Repr

/-- The fields of a microinstruction other than FB: the operand of an FB row. -/
structure FbCtx where
  alu : AluCode
  tb : TbCode
  s : SCode
  p : PCode
  lc : LcCode
  seq : SeqCode
  adr : BitVec 7
  deriving DecidableEq, Repr

/-- The fields of a microinstruction other than S: the operand of an S row. -/
structure SCtx where
  alu : AluCode
  tb : TbCode
  fb : FbCode
  p : PCode
  lc : LcCode
  seq : SeqCode
  adr : BitVec 7
  deriving DecidableEq, Repr

/-- The fields of a microinstruction other than P: the operand of an P row. -/
structure PCtx where
  alu : AluCode
  tb : TbCode
  fb : FbCode
  s : SCode
  lc : LcCode
  seq : SeqCode
  adr : BitVec 7
  deriving DecidableEq, Repr

/-- The fields of a microinstruction other than LC: the operand of an LC row. -/
structure LcCtx where
  alu : AluCode
  tb : TbCode
  fb : FbCode
  s : SCode
  p : PCode
  seq : SeqCode
  adr : BitVec 7
  deriving DecidableEq, Repr

/-- The fields of a microinstruction other than SEQ: the operand of an SEQ row. -/
structure SeqCtx where
  alu : AluCode
  tb : TbCode
  fb : FbCode
  s : SCode
  p : PCode
  lc : LcCode
  adr : BitVec 7
  deriving DecidableEq, Repr

/-- The microinstruction whose ALU field is `code` and whose other fields are `x`. -/
def AluCtx.word (x : AluCtx) (code : AluCode) : Micro :=
  { alu := code, tb := x.tb, fb := x.fb, s := x.s, p := x.p, lc := x.lc, seq := x.seq, adr := x.adr }

/-- The microinstruction whose TB field is `code` and whose other fields are `x`. -/
def TbCtx.word (x : TbCtx) (code : TbCode) : Micro :=
  { alu := x.alu, tb := code, fb := x.fb, s := x.s, p := x.p, lc := x.lc, seq := x.seq, adr := x.adr }

/-- The microinstruction whose FB field is `code` and whose other fields are `x`. -/
def FbCtx.word (x : FbCtx) (code : FbCode) : Micro :=
  { alu := x.alu, tb := x.tb, fb := code, s := x.s, p := x.p, lc := x.lc, seq := x.seq, adr := x.adr }

/-- The microinstruction whose S field is `code` and whose other fields are `x`. -/
def SCtx.word (x : SCtx) (code : SCode) : Micro :=
  { alu := x.alu, tb := x.tb, fb := x.fb, s := code, p := x.p, lc := x.lc, seq := x.seq, adr := x.adr }

/-- The microinstruction whose P field is `code` and whose other fields are `x`. -/
def PCtx.word (x : PCtx) (code : PCode) : Micro :=
  { alu := x.alu, tb := x.tb, fb := x.fb, s := x.s, p := code, lc := x.lc, seq := x.seq, adr := x.adr }

/-- The microinstruction whose LC field is `code` and whose other fields are `x`. -/
def LcCtx.word (x : LcCtx) (code : LcCode) : Micro :=
  { alu := x.alu, tb := x.tb, fb := x.fb, s := x.s, p := x.p, lc := code, seq := x.seq, adr := x.adr }

/-- The microinstruction whose SEQ field is `code` and whose other fields are `x`. -/
def SeqCtx.word (x : SeqCtx) (code : SeqCode) : Micro :=
  { alu := x.alu, tb := x.tb, fb := x.fb, s := x.s, p := x.p, lc := x.lc, seq := code, adr := x.adr }

/-- A microinstruction's fields other than ALU. -/
def Micro.aluCtx (m : Micro) : AluCtx :=
  { tb := m.tb, fb := m.fb, s := m.s, p := m.p, lc := m.lc, seq := m.seq, adr := m.adr }

/-- A microinstruction's fields other than TB. -/
def Micro.tbCtx (m : Micro) : TbCtx :=
  { alu := m.alu, fb := m.fb, s := m.s, p := m.p, lc := m.lc, seq := m.seq, adr := m.adr }

/-- A microinstruction's fields other than FB. -/
def Micro.fbCtx (m : Micro) : FbCtx :=
  { alu := m.alu, tb := m.tb, s := m.s, p := m.p, lc := m.lc, seq := m.seq, adr := m.adr }

/-- A microinstruction's fields other than S. -/
def Micro.sCtx (m : Micro) : SCtx :=
  { alu := m.alu, tb := m.tb, fb := m.fb, p := m.p, lc := m.lc, seq := m.seq, adr := m.adr }

/-- A microinstruction's fields other than P. -/
def Micro.pCtx (m : Micro) : PCtx :=
  { alu := m.alu, tb := m.tb, fb := m.fb, s := m.s, lc := m.lc, seq := m.seq, adr := m.adr }

/-- A microinstruction's fields other than LC. -/
def Micro.lcCtx (m : Micro) : LcCtx :=
  { alu := m.alu, tb := m.tb, fb := m.fb, s := m.s, p := m.p, seq := m.seq, adr := m.adr }

/-- A microinstruction's fields other than SEQ. -/
def Micro.seqCtx (m : Micro) : SeqCtx :=
  { alu := m.alu, tb := m.tb, fb := m.fb, s := m.s, p := m.p, lc := m.lc, adr := m.adr }

/-- An instruction: one row of spec/opcode_table.json with the rest of its word as operand (R69). -/
inductive Instr where
  | aluNop (x : AluCtx)
  | aluLd (x : AluCtx)
  | aluLdn (x : AluCtx)
  | aluClr (x : AluCtx)
  | aluAdd (x : AluCtx)
  | aluAddk (x : AluCtx)
  | aluAnd (x : AluCtx)
  | aluOr (x : AluCtx)
  | aluAddq (x : AluCtx)
  | aluLsl (x : AluCtx)
  | aluLsl32 (x : AluCtx)
  | aluAsr (x : AluCtx)
  | aluAsr32 (x : AluCtx)
  | aluLsr (x : AluCtx)
  | aluRol (x : AluCtx)
  | aluRol32 (x : AluCtx)
  | tbOnes (x : TbCtx)
  | tbIr (x : TbCtx)
  | tbPm (x : TbCtx)
  | tbPc (x : TbCtx)
  | tbAr (x : TbCtx)
  | tbHr (x : TbCtx)
  | tbGr (x : TbCtx)
  | tbLit (x : TbCtx)
  | fbNone (x : FbCtx)
  | fbIr (x : FbCtx)
  | fbPm (x : FbCtx)
  | fbPc (x : FbCtx)
  | fbRsv (x : FbCtx)
  | fbHr (x : FbCtx)
  | fbGr (x : FbCtx)
  | fbAsr (x : FbCtx)
  | sGrx (x : SCtx)
  | sM (x : SCtx)
  | pHold (x : PCtx)
  | pInc (x : PCtx)
  | lcHold (x : LcCtx)
  | lcDec (x : LcCtx)
  | lcBus (x : LcCtx)
  | lcImm (x : LcCtx)
  | seqNext (x : SeqCtx)
  | seqK1 (x : SeqCtx)
  | seqK2 (x : SeqCtx)
  | seqZero (x : SeqCtx)
  | seqJnz (x : SeqCtx)
  | seqJmp (x : SeqCtx)
  | seqCall (x : SeqCtx)
  | seqRet (x : SeqCtx)
  | seqJz (x : SeqCtx)
  | seqJn (x : SeqCtx)
  | seqJc (x : SeqCtx)
  | seqJo (x : SeqCtx)
  | seqJl (x : SeqCtx)
  | seqJnc (x : SeqCtx)
  | seqJno (x : SeqCtx)
  | seqHalt (x : SeqCtx)
  deriving DecidableEq, Repr

/-- The seven field groups of the opcode table (R69). -/
inductive FieldGroup where
  | alu | tb | fb | s | p | lc | seq
  deriving DecidableEq, Repr

/-- The whole microinstruction an instruction stands for. -/
def Instr.micro : Instr → Micro
  | .aluNop x => x.word .nop
  | .aluLd x => x.word .ld
  | .aluLdn x => x.word .ldn
  | .aluClr x => x.word .clr
  | .aluAdd x => x.word .add
  | .aluAddk x => x.word .addk
  | .aluAnd x => x.word .and
  | .aluOr x => x.word .or
  | .aluAddq x => x.word .addq
  | .aluLsl x => x.word .lsl
  | .aluLsl32 x => x.word .lsl32
  | .aluAsr x => x.word .asr
  | .aluAsr32 x => x.word .asr32
  | .aluLsr x => x.word .lsr
  | .aluRol x => x.word .rol
  | .aluRol32 x => x.word .rol32
  | .tbOnes x => x.word .ones
  | .tbIr x => x.word .ir
  | .tbPm x => x.word .pm
  | .tbPc x => x.word .pc
  | .tbAr x => x.word .ar
  | .tbHr x => x.word .hr
  | .tbGr x => x.word .gr
  | .tbLit x => x.word .lit
  | .fbNone x => x.word .none
  | .fbIr x => x.word .ir
  | .fbPm x => x.word .pm
  | .fbPc x => x.word .pc
  | .fbRsv x => x.word .rsv
  | .fbHr x => x.word .hr
  | .fbGr x => x.word .gr
  | .fbAsr x => x.word .asr
  | .sGrx x => x.word .grx
  | .sM x => x.word .m
  | .pHold x => x.word .hold
  | .pInc x => x.word .inc
  | .lcHold x => x.word .hold
  | .lcDec x => x.word .dec
  | .lcBus x => x.word .bus
  | .lcImm x => x.word .imm
  | .seqNext x => x.word .next
  | .seqK1 x => x.word .k1
  | .seqK2 x => x.word .k2
  | .seqZero x => x.word .zero
  | .seqJnz x => x.word .jnz
  | .seqJmp x => x.word .jmp
  | .seqCall x => x.word .call
  | .seqRet x => x.word .ret
  | .seqJz x => x.word .jz
  | .seqJn x => x.word .jn
  | .seqJc x => x.word .jc
  | .seqJo x => x.word .jo
  | .seqJl x => x.word .jl
  | .seqJnc x => x.word .jnc
  | .seqJno x => x.word .jno
  | .seqHalt x => x.word .halt

/-- The field group of an instruction's row. -/
def Instr.group : Instr → FieldGroup
  | .aluNop _ => .alu
  | .aluLd _ => .alu
  | .aluLdn _ => .alu
  | .aluClr _ => .alu
  | .aluAdd _ => .alu
  | .aluAddk _ => .alu
  | .aluAnd _ => .alu
  | .aluOr _ => .alu
  | .aluAddq _ => .alu
  | .aluLsl _ => .alu
  | .aluLsl32 _ => .alu
  | .aluAsr _ => .alu
  | .aluAsr32 _ => .alu
  | .aluLsr _ => .alu
  | .aluRol _ => .alu
  | .aluRol32 _ => .alu
  | .tbOnes _ => .tb
  | .tbIr _ => .tb
  | .tbPm _ => .tb
  | .tbPc _ => .tb
  | .tbAr _ => .tb
  | .tbHr _ => .tb
  | .tbGr _ => .tb
  | .tbLit _ => .tb
  | .fbNone _ => .fb
  | .fbIr _ => .fb
  | .fbPm _ => .fb
  | .fbPc _ => .fb
  | .fbRsv _ => .fb
  | .fbHr _ => .fb
  | .fbGr _ => .fb
  | .fbAsr _ => .fb
  | .sGrx _ => .s
  | .sM _ => .s
  | .pHold _ => .p
  | .pInc _ => .p
  | .lcHold _ => .lc
  | .lcDec _ => .lc
  | .lcBus _ => .lc
  | .lcImm _ => .lc
  | .seqNext _ => .seq
  | .seqK1 _ => .seq
  | .seqK2 _ => .seq
  | .seqZero _ => .seq
  | .seqJnz _ => .seq
  | .seqJmp _ => .seq
  | .seqCall _ => .seq
  | .seqRet _ => .seq
  | .seqJz _ => .seq
  | .seqJn _ => .seq
  | .seqJc _ => .seq
  | .seqJo _ => .seq
  | .seqJl _ => .seq
  | .seqJnc _ => .seq
  | .seqJno _ => .seq
  | .seqHalt _ => .seq

/-- The ALU row a microinstruction matches (R69). -/
def Micro.aluRow (m : Micro) : Instr :=
  match m.alu with
  | .nop => .aluNop m.aluCtx
  | .ld => .aluLd m.aluCtx
  | .ldn => .aluLdn m.aluCtx
  | .clr => .aluClr m.aluCtx
  | .add => .aluAdd m.aluCtx
  | .addk => .aluAddk m.aluCtx
  | .and => .aluAnd m.aluCtx
  | .or => .aluOr m.aluCtx
  | .addq => .aluAddq m.aluCtx
  | .lsl => .aluLsl m.aluCtx
  | .lsl32 => .aluLsl32 m.aluCtx
  | .asr => .aluAsr m.aluCtx
  | .asr32 => .aluAsr32 m.aluCtx
  | .lsr => .aluLsr m.aluCtx
  | .rol => .aluRol m.aluCtx
  | .rol32 => .aluRol32 m.aluCtx

/-- The TB row a microinstruction matches (R69). -/
def Micro.tbRow (m : Micro) : Instr :=
  match m.tb with
  | .ones => .tbOnes m.tbCtx
  | .ir => .tbIr m.tbCtx
  | .pm => .tbPm m.tbCtx
  | .pc => .tbPc m.tbCtx
  | .ar => .tbAr m.tbCtx
  | .hr => .tbHr m.tbCtx
  | .gr => .tbGr m.tbCtx
  | .lit => .tbLit m.tbCtx

/-- The FB row a microinstruction matches (R69). -/
def Micro.fbRow (m : Micro) : Instr :=
  match m.fb with
  | .none => .fbNone m.fbCtx
  | .ir => .fbIr m.fbCtx
  | .pm => .fbPm m.fbCtx
  | .pc => .fbPc m.fbCtx
  | .rsv => .fbRsv m.fbCtx
  | .hr => .fbHr m.fbCtx
  | .gr => .fbGr m.fbCtx
  | .asr => .fbAsr m.fbCtx

/-- The S row a microinstruction matches (R69). -/
def Micro.sRow (m : Micro) : Instr :=
  match m.s with
  | .grx => .sGrx m.sCtx
  | .m => .sM m.sCtx

/-- The P row a microinstruction matches (R69). -/
def Micro.pRow (m : Micro) : Instr :=
  match m.p with
  | .hold => .pHold m.pCtx
  | .inc => .pInc m.pCtx

/-- The LC row a microinstruction matches (R69). -/
def Micro.lcRow (m : Micro) : Instr :=
  match m.lc with
  | .hold => .lcHold m.lcCtx
  | .dec => .lcDec m.lcCtx
  | .bus => .lcBus m.lcCtx
  | .imm => .lcImm m.lcCtx

/-- The SEQ row a microinstruction matches (R69). -/
def Micro.seqRow (m : Micro) : Instr :=
  match m.seq with
  | .next => .seqNext m.seqCtx
  | .k1 => .seqK1 m.seqCtx
  | .k2 => .seqK2 m.seqCtx
  | .zero => .seqZero m.seqCtx
  | .jnz => .seqJnz m.seqCtx
  | .jmp => .seqJmp m.seqCtx
  | .call => .seqCall m.seqCtx
  | .ret => .seqRet m.seqCtx
  | .jz => .seqJz m.seqCtx
  | .jn => .seqJn m.seqCtx
  | .jc => .seqJc m.seqCtx
  | .jo => .seqJo m.seqCtx
  | .jl => .seqJl m.seqCtx
  | .jnc => .seqJnc m.seqCtx
  | .jno => .seqJno m.seqCtx
  | .halt => .seqHalt m.seqCtx

/-- The row of one field group that a microinstruction matches (R69). -/
def Micro.row (m : Micro) : FieldGroup → Instr
  | .alu => m.aluRow
  | .tb => m.tbRow
  | .fb => m.fbRow
  | .s => m.sRow
  | .p => m.pRow
  | .lc => m.lcRow
  | .seq => m.seqRow

/-- The seven rows a microinstruction matches, one of each field group (R69). -/
def Micro.rows (m : Micro) : List Instr :=
  [m.aluRow, m.tbRow, m.fbRow, m.sRow, m.pRow, m.lcRow, m.seqRow]

end Sys2Proof
end

