-- ==== Sys2Proof/WellFormed.lean ====
section
/-! DEFINITION. Which instructions are the decoder's name for their word.

Every term of `Instr` is a legal microinstruction (spec/30_encoding.md R69, R70): the types leave nothing
else to check. A word, however, matches seven rows, so seven instructions stand for it. The decoder names
a word by its LEADING field, the first field in the order of R61 whose code is not 0 (the first item that
the notation of R72 writes, which leaves zero fields out), and the word whose codes are all 0 by its ALU
row. `Instr.wellFormed` is the check that an instruction is that name (log entry 16). -/

namespace Sys2Proof

/-- The leading field of a microinstruction: the first whose code is not 0, ALU when there is none. -/
def Micro.leading (m : Micro) : FieldGroup :=
  if m.alu ≠ .nop then .alu
  else if m.tb ≠ .ones then .tb
  else if m.fb ≠ .none then .fb
  else if m.s ≠ .grx then .s
  else if m.p ≠ .hold then .p
  else if m.lc ≠ .hold then .lc
  else if m.seq ≠ .next then .seq
  else .alu

/-- An instruction is well formed when its row is the leading row of its word: it is then the one
instruction the decoder gives for that word. -/
def Instr.wellFormed (i : Instr) : Bool := i.group == i.micro.leading

end Sys2Proof
end

