-- ==== Sys2Proof/Decode.lean ====
section
/-! DEFINITION. Decoding and encoding of the 32-bit microinstruction word (spec/30_encoding.md R60 to R72;
40_cycle_decode.md R85), and the opcode table's rows.

The field positions are decision D1 of 92_eei_decisions.md: they are named constants, in this one place
(log entry 4). Decoding is total: "every bit pattern is a legal word" (R70, R85), bits 31:25 are ignored
(R67), so nothing is rejected. -/

namespace Sys2Proof

/-! ## Field positions (R61) -/

/-- The lowest bit of ALU = w[24:21] (R61, D1). -/
@[simp] abbrev aluPos : Nat := 21

/-- The lowest bit of TB = w[20:18] (R61, D1). -/
@[simp] abbrev tbPos : Nat := 18

/-- The lowest bit of FB = w[17:15] (R61, D1). -/
@[simp] abbrev fbPos : Nat := 15

/-- The lowest bit of S = w[14] (R61, D1). -/
@[simp] abbrev sPos : Nat := 14

/-- The lowest bit of P = w[13] (R61, D1). -/
@[simp] abbrev pPos : Nat := 13

/-- The lowest bit of LC = w[12:11] (R61, D1). -/
@[simp] abbrev lcPos : Nat := 11

/-- The lowest bit of SEQ = w[10:7] (R61, D1). -/
@[simp] abbrev seqPos : Nat := 7

/-- The lowest bit of ADR = w[6:0] (R61, D1). -/
@[simp] abbrev adrPos : Nat := 0

/-! ## Codes of each field (R69) -/

/-- The ALU code of 4 bits, every one written out: the top bit, then the low three (R69). -/
def AluCode.ofBits (b : BitVec 4) : AluCode :=
  match b.getLsbD 3, b.extractLsb' 0 3 with
  | false, 0b000#3 => .nop
  | false, 0b001#3 => .ld
  | false, 0b010#3 => .ldn
  | false, 0b011#3 => .clr
  | false, 0b100#3 => .add
  | false, 0b101#3 => .addk
  | false, 0b110#3 => .and
  | false, 0b111#3 => .or
  | true, 0b000#3 => .addq
  | true, 0b001#3 => .lsl
  | true, 0b010#3 => .lsl32
  | true, 0b011#3 => .asr
  | true, 0b100#3 => .asr32
  | true, 0b101#3 => .lsr
  | true, 0b110#3 => .rol
  | true, 0b111#3 => .rol32

/-- The bits of an ALU code (R69). -/
def AluCode.bits : AluCode → BitVec 4
  | .nop => 0b0000#4
  | .ld => 0b0001#4
  | .ldn => 0b0010#4
  | .clr => 0b0011#4
  | .add => 0b0100#4
  | .addk => 0b0101#4
  | .and => 0b0110#4
  | .or => 0b0111#4
  | .addq => 0b1000#4
  | .lsl => 0b1001#4
  | .lsl32 => 0b1010#4
  | .asr => 0b1011#4
  | .asr32 => 0b1100#4
  | .lsr => 0b1101#4
  | .rol => 0b1110#4
  | .rol32 => 0b1111#4

/-- The TB code of 3 bits, every one written out (R69). -/
def TbCode.ofBits (b : BitVec 3) : TbCode :=
  match b with
  | 0b000#3 => .ones
  | 0b001#3 => .ir
  | 0b010#3 => .pm
  | 0b011#3 => .pc
  | 0b100#3 => .ar
  | 0b101#3 => .hr
  | 0b110#3 => .gr
  | 0b111#3 => .lit

/-- The bits of a TB code (R69). -/
def TbCode.bits : TbCode → BitVec 3
  | .ones => 0b000#3
  | .ir => 0b001#3
  | .pm => 0b010#3
  | .pc => 0b011#3
  | .ar => 0b100#3
  | .hr => 0b101#3
  | .gr => 0b110#3
  | .lit => 0b111#3

/-- The FB code of 3 bits, every one written out (R69). -/
def FbCode.ofBits (b : BitVec 3) : FbCode :=
  match b with
  | 0b000#3 => .none
  | 0b001#3 => .ir
  | 0b010#3 => .pm
  | 0b011#3 => .pc
  | 0b100#3 => .rsv
  | 0b101#3 => .hr
  | 0b110#3 => .gr
  | 0b111#3 => .asr

/-- The bits of an FB code (R69). -/
def FbCode.bits : FbCode → BitVec 3
  | .none => 0b000#3
  | .ir => 0b001#3
  | .pm => 0b010#3
  | .pc => 0b011#3
  | .rsv => 0b100#3
  | .hr => 0b101#3
  | .gr => 0b110#3
  | .asr => 0b111#3

/-- The S code of 1 bit, every one written out (R69). -/
def SCode.ofBits (b : BitVec 1) : SCode :=
  match b with
  | 0b0#1 => .grx
  | 0b1#1 => .m

/-- The bits of an S code (R69). -/
def SCode.bits : SCode → BitVec 1
  | .grx => 0b0#1
  | .m => 0b1#1

/-- The P code of 1 bit, every one written out (R69). -/
def PCode.ofBits (b : BitVec 1) : PCode :=
  match b with
  | 0b0#1 => .hold
  | 0b1#1 => .inc

/-- The bits of a P code (R69). -/
def PCode.bits : PCode → BitVec 1
  | .hold => 0b0#1
  | .inc => 0b1#1

/-- The LC code of 2 bits, every one written out (R69). -/
def LcCode.ofBits (b : BitVec 2) : LcCode :=
  match b with
  | 0b00#2 => .hold
  | 0b01#2 => .dec
  | 0b10#2 => .bus
  | 0b11#2 => .imm

/-- The bits of an LC code (R69). -/
def LcCode.bits : LcCode → BitVec 2
  | .hold => 0b00#2
  | .dec => 0b01#2
  | .bus => 0b10#2
  | .imm => 0b11#2

/-- The SEQ code of 4 bits, every one written out: the top bit, then the low three (R69). -/
def SeqCode.ofBits (b : BitVec 4) : SeqCode :=
  match b.getLsbD 3, b.extractLsb' 0 3 with
  | false, 0b000#3 => .next
  | false, 0b001#3 => .k1
  | false, 0b010#3 => .k2
  | false, 0b011#3 => .zero
  | false, 0b100#3 => .jnz
  | false, 0b101#3 => .jmp
  | false, 0b110#3 => .call
  | false, 0b111#3 => .ret
  | true, 0b000#3 => .jz
  | true, 0b001#3 => .jn
  | true, 0b010#3 => .jc
  | true, 0b011#3 => .jo
  | true, 0b100#3 => .jl
  | true, 0b101#3 => .jnc
  | true, 0b110#3 => .jno
  | true, 0b111#3 => .halt

/-- The bits of an SEQ code (R69). -/
def SeqCode.bits : SeqCode → BitVec 4
  | .next => 0b0000#4
  | .k1 => 0b0001#4
  | .k2 => 0b0010#4
  | .zero => 0b0011#4
  | .jnz => 0b0100#4
  | .jmp => 0b0101#4
  | .call => 0b0110#4
  | .ret => 0b0111#4
  | .jz => 0b1000#4
  | .jn => 0b1001#4
  | .jc => 0b1010#4
  | .jo => 0b1011#4
  | .jl => 0b1100#4
  | .jnc => 0b1101#4
  | .jno => 0b1110#4
  | .halt => 0b1111#4

/-! ## The word -/

/-- Slices the seven codes and ADR out of a word (R61, R85). -/
def decodeMicro (w : Word32) : Micro :=
  { alu := AluCode.ofBits (w.extractLsb' aluPos 4)
    tb  := TbCode.ofBits (w.extractLsb' tbPos 3)
    fb  := FbCode.ofBits (w.extractLsb' fbPos 3)
    s   := SCode.ofBits (w.extractLsb' sPos 1)
    p   := PCode.ofBits (w.extractLsb' pPos 1)
    lc  := LcCode.ofBits (w.extractLsb' lcPos 2)
    seq := SeqCode.ofBits (w.extractLsb' seqPos 4)
    adr := w.extractLsb' adrPos 7 }

/-- The word of a microinstruction: `ALU<<21 | TB<<18 | FB<<15 | S<<14 | P<<13 | LC<<11 | SEQ<<7 | ADR`
(R72), bits 31:25 zero as R67 asks of a loader. -/
def encodeMicro (m : Micro) : Word32 :=
  (m.alu.bits.setWidth 32 <<< aluPos) ||| (m.tb.bits.setWidth 32 <<< tbPos) |||
  (m.fb.bits.setWidth 32 <<< fbPos) ||| (m.s.bits.setWidth 32 <<< sPos) |||
  (m.p.bits.setWidth 32 <<< pPos) ||| (m.lc.bits.setWidth 32 <<< lcPos) |||
  (m.seq.bits.setWidth 32 <<< seqPos) ||| (m.adr.setWidth 32 <<< adrPos)

/-- The instruction that names a microinstruction: the row of its leading field (log entry 16). -/
def nameOf (m : Micro) : Instr := m.row m.leading

/-- The instruction of a control-store word. Total: no word is illegal (R70). -/
def decode (w : Word32) : Instr := nameOf (decodeMicro w)

/-- The word of an instruction. -/
def encode (i : Instr) : Word32 := encodeMicro i.micro

/-- The low 16 bits of the microinstruction word, LIT16 = w[15:0] (R63). They are the lowest bit of FB and
the whole of S, P, LC, SEQ and ADR, so the fields give them. -/
def Micro.lit16 (m : Micro) : Word := (encodeMicro m).extractLsb' 0 16

/-- The low byte of the microinstruction word, IMM8 = w[7:0] (R64): SEQ's lowest bit and ADR. -/
def Micro.imm8 (m : Micro) : Byte := (encodeMicro m).extractLsb' 0 8

/-- The instruction that a word of `nbits` bits numbered `w` decodes to (bits above `nbits` are 0). A
microinstruction is one 32-bit cell and there is no longer form (R60), so `nbits` above 32 gives none. -/
def decodeTableWord (nbits w : Nat) : Option Instr :=
  if nbits ≤ 32 then some (decode (BitVec.ofNat 32 (w % 2 ^ nbits))) else none

/-! ## The opcode table -/

/-- One row of spec/opcode_table.json: a word `w` matches it when `w &&& mask = pattern`. -/
structure TableRow where
  mnemonic : String
  pattern : Word32
  mask : Word32
  deriving DecidableEq, Repr

/-- Each instruction's row, as spec/opcode_table.json gives it. -/
def Instr.tableRow : Instr → TableRow
  | .aluNop _ => ⟨"ALU.NOP", 0x00000000#32, 0x01E00000#32⟩
  | .aluLd _ => ⟨"ALU.LD", 0x00200000#32, 0x01E00000#32⟩
  | .aluLdn _ => ⟨"ALU.LDN", 0x00400000#32, 0x01E00000#32⟩
  | .aluClr _ => ⟨"ALU.CLR", 0x00600000#32, 0x01E00000#32⟩
  | .aluAdd _ => ⟨"ALU.ADD", 0x00800000#32, 0x01E00000#32⟩
  | .aluAddk _ => ⟨"ALU.ADDK", 0x00A00000#32, 0x01E00000#32⟩
  | .aluAnd _ => ⟨"ALU.AND", 0x00C00000#32, 0x01E00000#32⟩
  | .aluOr _ => ⟨"ALU.OR", 0x00E00000#32, 0x01E00000#32⟩
  | .aluAddq _ => ⟨"ALU.ADDQ", 0x01000000#32, 0x01E00000#32⟩
  | .aluLsl _ => ⟨"ALU.LSL", 0x01200000#32, 0x01E00000#32⟩
  | .aluLsl32 _ => ⟨"ALU.LSL32", 0x01400000#32, 0x01E00000#32⟩
  | .aluAsr _ => ⟨"ALU.ASR", 0x01600000#32, 0x01E00000#32⟩
  | .aluAsr32 _ => ⟨"ALU.ASR32", 0x01800000#32, 0x01E00000#32⟩
  | .aluLsr _ => ⟨"ALU.LSR", 0x01A00000#32, 0x01E00000#32⟩
  | .aluRol _ => ⟨"ALU.ROL", 0x01C00000#32, 0x01E00000#32⟩
  | .aluRol32 _ => ⟨"ALU.ROL32", 0x01E00000#32, 0x01E00000#32⟩
  | .tbOnes _ => ⟨"TB.ONES", 0x00000000#32, 0x001C0000#32⟩
  | .tbIr _ => ⟨"TB.IR", 0x00040000#32, 0x001C0000#32⟩
  | .tbPm _ => ⟨"TB.PM", 0x00080000#32, 0x001C0000#32⟩
  | .tbPc _ => ⟨"TB.PC", 0x000C0000#32, 0x001C0000#32⟩
  | .tbAr _ => ⟨"TB.AR", 0x00100000#32, 0x001C0000#32⟩
  | .tbHr _ => ⟨"TB.HR", 0x00140000#32, 0x001C0000#32⟩
  | .tbGr _ => ⟨"TB.GR", 0x00180000#32, 0x001C0000#32⟩
  | .tbLit _ => ⟨"TB.LIT", 0x001C0000#32, 0x001C0000#32⟩
  | .fbNone _ => ⟨"FB.NONE", 0x00000000#32, 0x00038000#32⟩
  | .fbIr _ => ⟨"FB.IR", 0x00008000#32, 0x00038000#32⟩
  | .fbPm _ => ⟨"FB.PM", 0x00010000#32, 0x00038000#32⟩
  | .fbPc _ => ⟨"FB.PC", 0x00018000#32, 0x00038000#32⟩
  | .fbRsv _ => ⟨"FB.RSV", 0x00020000#32, 0x00038000#32⟩
  | .fbHr _ => ⟨"FB.HR", 0x00028000#32, 0x00038000#32⟩
  | .fbGr _ => ⟨"FB.GR", 0x00030000#32, 0x00038000#32⟩
  | .fbAsr _ => ⟨"FB.ASR", 0x00038000#32, 0x00038000#32⟩
  | .sGrx _ => ⟨"S.GRX", 0x00000000#32, 0x00004000#32⟩
  | .sM _ => ⟨"S.M", 0x00004000#32, 0x00004000#32⟩
  | .pHold _ => ⟨"P.HOLD", 0x00000000#32, 0x00002000#32⟩
  | .pInc _ => ⟨"P.INC", 0x00002000#32, 0x00002000#32⟩
  | .lcHold _ => ⟨"LC.HOLD", 0x00000000#32, 0x00001800#32⟩
  | .lcDec _ => ⟨"LC.DEC", 0x00000800#32, 0x00001800#32⟩
  | .lcBus _ => ⟨"LC.BUS", 0x00001000#32, 0x00001800#32⟩
  | .lcImm _ => ⟨"LC.IMM", 0x00001800#32, 0x00001800#32⟩
  | .seqNext _ => ⟨"SEQ.NEXT", 0x00000000#32, 0x00000780#32⟩
  | .seqK1 _ => ⟨"SEQ.K1", 0x00000080#32, 0x00000780#32⟩
  | .seqK2 _ => ⟨"SEQ.K2", 0x00000100#32, 0x00000780#32⟩
  | .seqZero _ => ⟨"SEQ.ZERO", 0x00000180#32, 0x00000780#32⟩
  | .seqJnz _ => ⟨"SEQ.JNZ", 0x00000200#32, 0x00000780#32⟩
  | .seqJmp _ => ⟨"SEQ.JMP", 0x00000280#32, 0x00000780#32⟩
  | .seqCall _ => ⟨"SEQ.CALL", 0x00000300#32, 0x00000780#32⟩
  | .seqRet _ => ⟨"SEQ.RET", 0x00000380#32, 0x00000780#32⟩
  | .seqJz _ => ⟨"SEQ.JZ", 0x00000400#32, 0x00000780#32⟩
  | .seqJn _ => ⟨"SEQ.JN", 0x00000480#32, 0x00000780#32⟩
  | .seqJc _ => ⟨"SEQ.JC", 0x00000500#32, 0x00000780#32⟩
  | .seqJo _ => ⟨"SEQ.JO", 0x00000580#32, 0x00000780#32⟩
  | .seqJl _ => ⟨"SEQ.JL", 0x00000600#32, 0x00000780#32⟩
  | .seqJnc _ => ⟨"SEQ.JNC", 0x00000680#32, 0x00000780#32⟩
  | .seqJno _ => ⟨"SEQ.JNO", 0x00000700#32, 0x00000780#32⟩
  | .seqHalt _ => ⟨"SEQ.HALT", 0x00000780#32, 0x00000780#32⟩

/-- A word matches an instruction's row of the opcode table. -/
def Instr.fitsRow (i : Instr) (w : Word32) : Bool := w &&& i.tableRow.mask == i.tableRow.pattern

end Sys2Proof
end

