-- ==== Sys2Proof/Config.lean ====
section
/-! DEFINITION. What is fixed for one machine: the three parameters the spec leaves to the model
(spec/92_eei_decisions.md: `INIT`, `SEQ_FLAG_VIEW`, `CYCLE_WIDTH`). The spec leaves no value open after an
instruction (93_implementation_defined.md: "No behaviour in this spec is left as an arbitrary value"), so
there is no free value here. -/

namespace Sys2Proof

/-- Which flag values a sequencer test sees (44_sequencer.md R160, decision D4): those from before the
cycle, or the Z, N, O, C the same cycle's ALU produces. -/
inductive FlagView where
  | pre
  | post
  deriving DecidableEq, Repr

/-- The initial register and flag snapshot given to the initialiser, the parameter `INIT`
(10_state.md R32; 70_reset_and_hazards.md R210). -/
structure Snapshot where
  pc : Byte
  asr : Byte
  ar : Word
  hr : Word
  gr0 : Word
  gr1 : Word
  gr2 : Word
  gr3 : Word
  ir : Word
  upc : Byte
  usp : Byte
  lc : Byte
  z : Bool
  n : Bool
  o : Bool
  c : Bool
  l : Bool
  deriving DecidableEq, Repr

namespace Config

/-- `SEQ_FLAG_VIEW`: the spec's default and decision D4, the pre-cycle flags. UNSAFE if the hardware has the
other view (log entry 7). -/
def seqFlagView : FlagView := .pre

/-- `CYCLE_WIDTH`: none, the counter is unbounded (decision D7, log entry 10). -/
def cycleWidth : Option Nat := none

/-- The snapshot `State.reset` takes: DESIGN CHOICE, UNSAFE, the spec gives no default (R32, D12; log
entry 2). Every register and flag 0, except L, which agrees with LC = 0 as R213 point 6 asks. -/
def init : Snapshot :=
  { pc := 0, asr := 0, ar := 0, hr := 0, gr0 := 0, gr1 := 0, gr2 := 0, gr3 := 0, ir := 0
    upc := 0, usp := 0, lc := 0, z := false, n := false, o := false, c := false, l := true }

end Config

end Sys2Proof
end

