-- ==== Sys2Proof/Machine/State.lean ====
section
/-! DEFINITION. The state of the core (spec/10_state.md R10, R11), as plain data, its value after reset, and
the reasons a step can stop.

The state is the register file, the five flags, the halt latch, the cycle counter and the four memories.
"There is no other state" (R10): the fetched word, its fields, sel and the bus value are recomputed every
cycle and never kept (R30). -/

namespace Sys2Proof.Machine

/-- What a memory cell that is not listed reads as: "zero-initialized unless loaded" (R32). -/
abbrev unlisted (w : Nat) : BitVec w := 0

/-- A memory of cells of `w` bits: the cells that differ from `unlisted`, by rising address. One entry is one
whole cell, the only unit the core addresses (20_memory.md R48; log entry 1). -/
abbrev Memory (w : Nat) := List (Nat × BitVec w)

/-- Every listed address is at least `lo` and below `size`, the addresses rise strictly, and no entry holds
what an unlisted cell reads as. -/
def Memory.wfFrom {w : Nat} (size : Nat) : Nat → Memory w → Bool
  | _, [] => true
  | lo, (a, v) :: rest =>
    decide (lo ≤ a) && decide (a < size) && decide (v ≠ unlisted w) && Memory.wfFrom size (a + 1) rest

/-- The canonical form of a memory of `size` cells. -/
def Memory.wf {w : Nat} (size : Nat) (m : Memory w) : Bool := Memory.wfFrom size 0 m

/-- The number of cells of each memory (R40 to R43). -/
@[simp] abbrev pmSize : Nat := 256
@[simp] abbrev csSize : Nat := 128
@[simp] abbrev k1Size : Nat := 16
@[simp] abbrev k2Size : Nat := 4

/-- The complete state of the core (R10, R11, R21, R27, R28, R40 to R43). -/
structure State where
  /-- macro-program counter (R15) -/
  pc : Byte
  /-- address register for program memory (R16) -/
  asr : Byte
  /-- accumulator (R13) -/
  ar : Word
  /-- extension register, the low half of AR:HR (R14) -/
  hr : Word
  /-- general registers (R12) -/
  gr0 : Word
  gr1 : Word
  gr2 : Word
  gr3 : Word
  /-- instruction register (R17) -/
  ir : Word
  /-- microprogram counter, valid 0..127 (R18) -/
  upc : Byte
  /-- the one microsubroutine return address (R19) -/
  usp : Byte
  /-- loop counter (R20) -/
  lc : Byte
  /-- zero (R22) -/
  z : Bool
  /-- negative (R23) -/
  n : Bool
  /-- overflow (R24) -/
  o : Bool
  /-- carry, borrow (R25) -/
  c : Bool
  /-- loop counter is zero (R26) -/
  l : Bool
  /-- the halt latch (R27) -/
  halted : Bool
  /-- the cycle counter (R28) -/
  cycleCount : Nat
  /-- program memory PM (R40) -/
  pm : Memory 16
  /-- control store CS (R41) -/
  cs : Memory 32
  /-- jump table K1 (R42) -/
  k1 : Memory 8
  /-- jump table K2 (R43) -/
  k2 : Memory 8
  deriving DecidableEq, Repr

/-- Why the core stops. -/
inductive Fault where
  /-- `UPC_OUT_OF_RANGE(uPC)`: raised by `step` when the core is not halted and uPC is above 127, where the
  control store has no cell (60_exceptions.md R193, D6). Safe: no state follows. -/
  | upcOutOfRange (upc : Byte)
  deriving DecidableEq, Repr

/-- Why an instruction is given no meaning. Every row has its meaning, so no step answers a refusal. -/
inductive Refusal where
  /-- An instruction without a meaning yet. Raised by no arm of `exec`. Safe: no state follows. -/
  | notModelled (mnemonic : String)
  deriving DecidableEq, Repr

/-- The state an initialiser leaves from a snapshot and four memories (R210): `halted` false, `cycleCount` 0. -/
def State.ofSnapshot (x : Snapshot) (pm : Memory 16) (cs : Memory 32) (k1 k2 : Memory 8) : State :=
  { pc := x.pc, asr := x.asr, ar := x.ar, hr := x.hr, gr0 := x.gr0, gr1 := x.gr1, gr2 := x.gr2, gr3 := x.gr3
    ir := x.ir, upc := x.upc, usp := x.usp, lc := x.lc, z := x.z, n := x.n, o := x.o, c := x.c, l := x.l
    halted := false, cycleCount := 0, pm := pm, cs := cs, k1 := k1, k2 := k2 }

/-- The machine right after reset: the memories all zero, "zero-initialized unless loaded" (R32, R210),
`halted` false and `cycleCount` 0 (R210), the registers and flags those of `Config.init` (log entry 2). -/
def State.reset : State := State.ofSnapshot Config.init [] [] [] []

/-- The predicate that all four memories are in canonical form. -/
def State.memoryWf (s : State) : Bool :=
  s.pm.wf pmSize && s.cs.wf csSize && s.k1.wf k1Size && s.k2.wf k2Size

end Sys2Proof.Machine
end

