-- ==== Sys2Proof/Machine/Ops.lean ====
section
/-! DEFINITION. The named operations over memories and registers, the fetch, the cycle counter, the one
fault, and initialisation.

The spec has no exception entry and no exception return (60_exceptions.md R190, R196, R197): nothing saves a
pc or a status, and no handler runs. The one abnormal stop is `raiseUpcOutOfRange` (R193). -/

namespace Sys2Proof.Machine

/-! ## Cells (20_memory.md R44, R45, R48) -/

/-- `MemRead`: the whole cell `a`; a cell not listed reads `unlisted`. No side effect (R44). -/
def Memory.read {w : Nat} : Memory w → Nat → BitVec w
  | [], _ => unlisted w
  | (b, v) :: rest, a => if b = a then v else Memory.read rest a

/-- The entry list that holds `v` at `a` in front of `rest`: none when `v` is what an unlisted cell reads. -/
def Memory.entry {w : Nat} (a : Nat) (v : BitVec w) (rest : Memory w) : Memory w :=
  if v = unlisted w then rest else (a, v) :: rest

/-- `MemWrite`: replaces the whole cell `a` (R45), keeping the canonical form. -/
def Memory.write {w : Nat} : Memory w → Nat → BitVec w → Memory w
  | [], a, v => Memory.entry a v []
  | (b, x) :: rest, a, v =>
    if a < b then Memory.entry a v ((b, x) :: rest)
    else if a = b then Memory.entry a v rest
    else (b, x) :: Memory.write rest a v

/-- The memory that holds a list of cells from address `a` on. -/
def Memory.ofList {w : Nat} : Nat → List (BitVec w) → Memory w
  | _, [] => []
  | a, v :: rest => Memory.entry a v (Memory.ofList (a + 1) rest)

/-! ## Register and flag writes, one per destination (10_state.md R11) -/

def setPc (v : Byte) (t : State) : State := { t with pc := v }
def setAsr (v : Byte) (t : State) : State := { t with asr := v }
def setHr (v : Word) (t : State) : State := { t with hr := v }
def setIr (v : Word) (t : State) : State := { t with ir := v }
def setUpc (v : Byte) (t : State) : State := { t with upc := v }
def setUsp (v : Byte) (t : State) : State := { t with usp := v }
def setLc (v : Byte) (t : State) : State := { t with lc := v }
def setL (v : Bool) (t : State) : State := { t with l := v }
def setHalted (v : Bool) (t : State) : State := { t with halted := v }
def setCycleCount (v : Nat) (t : State) : State := { t with cycleCount := v }

/-- Write one program-memory cell (R45). -/
def setPmCell (a : Byte) (v : Word) (t : State) : State := { t with pm := t.pm.write a.toNat v }

/-- Place a word in a control-store cell. No instruction does this (R41); initialisation and
`State.withFetchWord` do. -/
def setCsCell (a : Byte) (v : Word32) (t : State) : State := { t with cs := t.cs.write a.toNat v }

/-- Read general register `i` (R12). -/
def readGr (i : BitVec 2) (s : State) : Word :=
  match i with
  | 0#2 => s.gr0
  | 1#2 => s.gr1
  | 2#2 => s.gr2
  | 3#2 => s.gr3

/-- Write general register `i`; the other three are unchanged (R12, R117). -/
def setGr (i : BitVec 2) (v : Word) (t : State) : State :=
  match i with
  | 0#2 => { t with gr0 := v }
  | 1#2 => { t with gr1 := v }
  | 2#2 => { t with gr2 := v }
  | 3#2 => { t with gr3 := v }

/-- The program-memory cell at `a` (R44). Every 8-bit address is a cell (R49). -/
def readPm (a : Byte) (s : State) : Word := s.pm.read a.toNat

/-- The jump-table entries (R42, R43). -/
def readK1 (i : BitVec 4) (s : State) : Byte := s.k1.read i.toNat
def readK2 (i : BitVec 2) (s : State) : Byte := s.k2.read i.toNat

/-! ## Fetch, the fault, the cycle counter -/

/-- uPC addresses a control-store cell: 0..127 (R18, R84). -/
def upcInRange (s : State) : Bool := decide (s.upc.toNat < csSize)

/-- The control-store word the next step executes, `CS[uPC]` (40_cycle_decode.md R84). -/
def fetchWord (s : State) : Word32 := s.cs.read s.upc.toNat

/-- `raise UPC_OUT_OF_RANGE(uPC)`: no state is installed and none is saved (R193). -/
def raiseUpcOutOfRange (s : State) : Host.Outcome State Fault Refusal := .fault (.upcOutOfRange s.upc)

/-- The next value of a cycle counter of `width` bits, unbounded when there is no width (R28, D7). -/
def countNext (width : Option Nat) (n : Nat) : Nat :=
  match width with
  | none => n + 1
  | some k => (n + 1) % 2 ^ k

/-- `cycleCount' = cycleCount + 1`, at the end of every performed cycle (R92). -/
def tick (t : State) : State := setCycleCount (countNext Config.cycleWidth t.cycleCount) t

/-! ## Initialisation (70_reset_and_hazards.md R210, R211) -/

/-- The four arrays the initialiser takes; their sizes, the loader's duty (60_exceptions.md R192), are in the
types. -/
structure CoreImage where
  pm : Vector Word pmSize
  cs : Vector Word32 csSize
  k1 : Vector Byte k1Size
  k2 : Vector Byte k2Size
  deriving DecidableEq, Repr

/-- The core's only reset: installs the four memories and the snapshot, clears `halted`, zeroes
`cycleCount` (R210). -/
def initCore (img : CoreImage) (x : Snapshot) : State :=
  State.ofSnapshot x (Memory.ofList 0 img.pm.toList) (Memory.ofList 0 img.cs.toList)
    (Memory.ofList 0 img.k1.toList) (Memory.ofList 0 img.k2.toList)

end Sys2Proof.Machine
end

