-- ==== Sys2Proof/Machine/Operands.lean ====
section
/-! DEFINITION. Operands: the fields of the macro-instruction word IR (spec/30_encoding.md R66), the
register-select index (40_cycle_decode.md R87 to R89) and the eight bus sources (41_bus_source.md R100 to
R108). The state argument of everything here is the PRIOR snapshot (R82). -/

namespace Sys2Proof.Machine

/-! ## The macro-instruction fields (R66, R86), decision D2 (log entry 5) -/

/-- The lowest bit of OP = IR[15:12]. -/
@[simp] abbrev irOpPos : Nat := 12
/-- The lowest bit of GRx = IR[11:10]. -/
@[simp] abbrev irGrxPos : Nat := 10
/-- The lowest bit of M = IR[9:8]. -/
@[simp] abbrev irModePos : Nat := 8
/-- The lowest bit of IADR = IR[7:0]. -/
@[simp] abbrev irAdrPos : Nat := 0

def irOp (ir : Word) : BitVec 4 := ir.extractLsb' irOpPos 4
def irGrx (ir : Word) : BitVec 2 := ir.extractLsb' irGrxPos 2
def irMode (ir : Word) : BitVec 2 := ir.extractLsb' irModePos 2

/-- IADR, "carried but not consumed by the core's own logic" (R66, R86). -/
def irAdr (ir : Word) : Byte := ir.extractLsb' irAdrPos 8

/-! ## Register selection -/

/-- S = 0: `sel = GRx` (R88). -/
def selGrx (s : State) : BitVec 2 := irGrx s.ir

/-- S = 1: `sel = M` (R89). -/
def selM (s : State) : BitVec 2 := irMode s.ir

/-- The register-select index of the cycle, one for the read and the write (R87), decision D3 (log entry 6). -/
def selIndex (code : SCode) (s : State) : BitVec 2 :=
  match code with
  | .grx => selGrx s
  | .m => selM s

/-! ## Narrowing and widening (R68) -/

/-- The low 8 bits of the bus, what an 8-bit destination keeps (R110). -/
def busLow (bus : Word) : Byte := bus.extractLsb' 0 8

/-- A jump address, zero-extended to 8 bits (R65). -/
def jumpTarget (adr : BitVec 7) : Byte := adr.setWidth 8

/-! ## Bus sources -/

/-- TB = 0 (R100). -/
def busOnes : Word := 0xFFFF#16
/-- TB = 1 (R101). -/
def busIr (s : State) : Word := s.ir
/-- TB = 2: `PM[ASR]` at the prior ASR (R102). -/
def busPm (s : State) : Word := readPm s.asr s
/-- TB = 3: PC zero-extended (R103). -/
def busPc (s : State) : Word := s.pc.setWidth 16
/-- TB = 4 (R104). -/
def busAr (s : State) : Word := s.ar
/-- TB = 5 (R105). -/
def busHr (s : State) : Word := s.hr
/-- TB = 6: `GR[sel]` (R106). -/
def busGr (m : Micro) (s : State) : Word := readGr (selIndex m.s s) s
/-- TB = 7: the word's own low 16 bits (R107, R63). -/
def busLit (m : Micro) : Word := m.lit16

/-- The one bus value of the cycle (R108). -/
def busSource (m : Micro) (s : State) : Word :=
  match m.tb with
  | .ones => busOnes
  | .ir => busIr s
  | .pm => busPm s
  | .pc => busPc s
  | .ar => busAr s
  | .hr => busHr s
  | .gr => busGr m s
  | .lit => busLit m

end Sys2Proof.Machine
end

