-- ==== Sys2Proof/Machine/LoopOps.lean ====
section
/-! DEFINITION. The loop counter and the L flag (spec/42_writeback_control.md R121 to R125). -/

namespace Sys2Proof.Machine

/-- LC control 0 (R121). -/
def lcHold (old : State) : Byte := old.lc
/-- LC control 1: minus 1, modulo 256 (R122). -/
def lcDec (old : State) : Byte := old.lc - 1#8
/-- LC control 2: `bus[7:0]` (R123). -/
def lcBus (bus : Word) : Byte := busLow bus
/-- LC control 3: IMM8 (R124). -/
def lcImm (m : Micro) : Byte := m.imm8

/-- The new LC. -/
def lcNext (m : Micro) (bus : Word) (old : State) : Byte :=
  match m.lc with
  | .hold => lcHold old
  | .dec => lcDec old
  | .bus => lcBus bus
  | .imm => lcImm m

/-- The loop-counter stage: LC, then L from the new LC "even when the field is 0" (R125). -/
def loopControl (m : Micro) (bus : Word) (old t : State) : State :=
  setL (flagL (lcNext m bus old)) (setLc (lcNext m bus old) t)

end Sys2Proof.Machine
end

