-- ==== Sys2Proof/Machine/AluOps.lean ====
section
/-! DEFINITION. The sixteen ALU operations (spec/43_alu.md R130 to R150). Each takes the bus value and the
prior AR, HR, Z, N, O, C, and gives the new ones; what a code's rule does not list is left as it was (sticky
flags, 10_state.md R21). No code reads a flag, and L is never written here. -/

namespace Sys2Proof.Machine

/-- What the ALU reads and writes besides the bus (R130). -/
structure AluRegs where
  ar : Word
  hr : Word
  z : Bool
  n : Bool
  o : Bool
  c : Bool
  deriving DecidableEq, Repr

/-- The pair AR:HR, AR the upper half (R14). -/
def pair (x : AluRegs) : Word32 := x.ar ++ x.hr

/-- The upper and the lower half of a 32-bit value. -/
def upper (v : Word32) : Word := v.extractLsb' 16 16
def lower (v : Word32) : Word := v.extractLsb' 0 16

/-- A new AR with Z and N from it: `ZN16` (R148). -/
def withZN (r : Word) (x : AluRegs) : AluRegs := { x with ar := r, z := flagZ r, n := flagN r }

/-- The C flag. -/
def withC (b : Bool) (x : AluRegs) : AluRegs := { x with c := b }

/-- Code 0, NOP (R131). -/
def aluNop (x : AluRegs) : AluRegs := x
/-- Code 1, LD (R132). -/
def aluLd (bus : Word) (x : AluRegs) : AluRegs := { x with ar := bus }
/-- Code 2, LDN (R133). -/
def aluLdn (bus : Word) (x : AluRegs) : AluRegs := { x with ar := bus ^^^ 0xFFFF#16 }
/-- Code 3, CLR: Z true, N false (R134). -/
def aluClr (x : AluRegs) : AluRegs := { x with ar := 0#16, z := true, n := false }
/-- Code 4, ADD: Z, N, C, O (R135). -/
def aluAdd (bus : Word) (x : AluRegs) : AluRegs :=
  { withC (flagCAdd x.ar (x.ar + bus)) (withZN (x.ar + bus) x) with o := flagOAdd x.ar bus (x.ar + bus) }
/-- Code 5, ADDK: an addition, Z, N, C; O kept (R136; log entry 18). -/
def aluAddk (bus : Word) (x : AluRegs) : AluRegs :=
  withC (flagCAdd x.ar (x.ar + bus)) (withZN (x.ar + bus) x)
/-- Code 6, AND: Z, N (R137). -/
def aluAnd (bus : Word) (x : AluRegs) : AluRegs := withZN (x.ar &&& bus) x
/-- Code 7, OR: Z, N (R138). -/
def aluOr (bus : Word) (x : AluRegs) : AluRegs := withZN (x.ar ||| bus) x
/-- Code 8, ADDQ: no flag (R139). -/
def aluAddq (bus : Word) (x : AluRegs) : AluRegs := { x with ar := x.ar + bus }
/-- Code 9, LSL: C the old bit 7 (R140). -/
def aluLsl (x : AluRegs) : AluRegs := withC (flagCLeft x.ar) (withZN (x.ar <<< 1) x)
/-- Code 10, LSL32: AR and HR; Z and N over 32 bits (R141). -/
def aluLsl32 (x : AluRegs) : AluRegs :=
  { x with
    ar := upper (pair x <<< 1)
    hr := lower (pair x <<< 1)
    z := flagZ32 (pair x <<< 1)
    n := flagN32 (pair x <<< 1)
    c := flagCLeft x.ar }
/-- Code 11, ASR: bit 15 kept (R142). -/
def aluAsr (x : AluRegs) : AluRegs := withC (flagCBit0 x.ar) (withZN (x.ar.sshiftRight 1) x)
/-- Code 12, ASR32: AR and HR; Z and N over the new AR; C the old HR bit 0 (R143). -/
def aluAsr32 (x : AluRegs) : AluRegs :=
  { withC (flagCBit0 x.hr) (withZN (upper ((pair x).sshiftRight 1)) x) with
    hr := lower ((pair x).sshiftRight 1) }
/-- Code 13, LSR (R144). -/
def aluLsr (x : AluRegs) : AluRegs := withC (flagCBit0 x.ar) (withZN (x.ar >>> 1) x)
/-- Code 14, ROL: bit 15 wraps to bit 0; C the old bit 7 (R145). -/
def aluRol (x : AluRegs) : AluRegs := withC (flagCLeft x.ar) (withZN (x.ar.rotateLeft 1) x)
/-- Code 15, ROL32: AR takes the LOWER half of the rotated pair, HR is kept; C the old HR bit 0 (R146). -/
def aluRol32 (x : AluRegs) : AluRegs :=
  withC (flagCBit0 x.hr) (withZN (lower ((pair x).rotateLeft 1)) x)

/-- The ALU: the sixteen codes are the whole table (R150). -/
def alu (code : AluCode) (bus : Word) (x : AluRegs) : AluRegs :=
  match code with
  | .nop => aluNop x
  | .ld => aluLd bus x
  | .ldn => aluLdn bus x
  | .clr => aluClr x
  | .add => aluAdd bus x
  | .addk => aluAddk bus x
  | .and => aluAnd bus x
  | .or => aluOr bus x
  | .addq => aluAddq bus x
  | .lsl => aluLsl x
  | .lsl32 => aluLsl32 x
  | .asr => aluAsr x
  | .asr32 => aluAsr32 x
  | .lsr => aluLsr x
  | .rol => aluRol x
  | .rol32 => aluRol32 x

/-- The ALU's inputs in a state. -/
def aluRegs (s : State) : AluRegs :=
  { ar := s.ar, hr := s.hr, z := s.z, n := s.n, o := s.o, c := s.c }

/-- Installs the ALU's outputs (R80). -/
def installAlu (a : AluRegs) (t : State) : State :=
  { t with ar := a.ar, hr := a.hr, z := a.z, n := a.n, o := a.o, c := a.c }

end Sys2Proof.Machine
end

