-- ==== Sys2Proof/Machine/SequencerOps.lean ====
section
/-! DEFINITION. The microprogram sequencer (spec/44_sequencer.md R160 to R179). uPC, uSP, IR and the tables
are those of the prior snapshot `old`; all uPC arithmetic is modulo 256, with no masking to 7 bits (R178). -/

namespace Sys2Proof.Machine

/-- The flags a sequencer test sees. -/
structure SeqFlags where
  z : Bool
  n : Bool
  o : Bool
  c : Bool
  l : Bool
  deriving DecidableEq, Repr

/-- The flag view (R160, D4): `pre`, all five of the prior snapshot; `post`, the ALU's new Z, N, O, C. L is
the prior one in both: "at least L cannot be the new value" (D4). -/
def seqFlags (view : FlagView) (a : AluRegs) (old : State) : SeqFlags :=
  match view with
  | .pre => { z := old.z, n := old.n, o := old.o, c := old.c, l := old.l }
  | .post => { z := a.z, n := a.n, o := a.o, c := a.c, l := old.l }

/-- The address after the executing microinstruction. -/
def upcNext (old : State) : Byte := old.upc + 1#8

/-- The jump predicate: ADR if the condition holds, else uPC + 1 (R177). -/
def jumpIf (cond : Bool) (adr : BitVec 7) (old : State) : Byte :=
  if cond then jumpTarget adr else upcNext old

/-- SEQ 0 (R161). -/
def seqNext (old t : State) : State := setUpc (upcNext old) t
/-- SEQ 1: `K1[OP]` (R162). -/
def seqK1 (old t : State) : State := setUpc (readK1 (irOp old.ir) old) t
/-- SEQ 2: `K2[M]` (R163). -/
def seqK2 (old t : State) : State := setUpc (readK2 (irMode old.ir) old) t
/-- SEQ 3 (R164). -/
def seqZero (t : State) : State := setUpc 0#8 t
/-- SEQ 4 (R165). -/
def seqJnz (f : SeqFlags) (adr : BitVec 7) (old t : State) : State := setUpc (jumpIf (!f.z) adr old) t
/-- SEQ 5 (R166). -/
def seqJmp (adr : BitVec 7) (t : State) : State := setUpc (jumpTarget adr) t
/-- SEQ 6: saves the address of the CALL word itself (R167). -/
def seqCall (adr : BitVec 7) (old t : State) : State := setUpc (jumpTarget adr) (setUsp old.upc t)
/-- SEQ 7: uSP unchanged (R168). -/
def seqRet (old t : State) : State := setUpc old.usp t
/-- SEQ 8 (R169). -/
def seqJz (f : SeqFlags) (adr : BitVec 7) (old t : State) : State := setUpc (jumpIf f.z adr old) t
/-- SEQ 9 (R170). -/
def seqJn (f : SeqFlags) (adr : BitVec 7) (old t : State) : State := setUpc (jumpIf f.n adr old) t
/-- SEQ 10 (R171). -/
def seqJc (f : SeqFlags) (adr : BitVec 7) (old t : State) : State := setUpc (jumpIf f.c adr old) t
/-- SEQ 11 (R172). -/
def seqJo (f : SeqFlags) (adr : BitVec 7) (old t : State) : State := setUpc (jumpIf f.o adr old) t
/-- SEQ 12 (R173). -/
def seqJl (f : SeqFlags) (adr : BitVec 7) (old t : State) : State := setUpc (jumpIf f.l adr old) t
/-- SEQ 13 (R174). -/
def seqJnc (f : SeqFlags) (adr : BitVec 7) (old t : State) : State := setUpc (jumpIf (!f.c) adr old) t
/-- SEQ 14 (R175). -/
def seqJno (f : SeqFlags) (adr : BitVec 7) (old t : State) : State := setUpc (jumpIf (!f.o) adr old) t
/-- SEQ 15: sets the halt latch, uPC 0 (R176). -/
def seqHalt (t : State) : State := setHalted true (setUpc 0#8 t)

/-- The sequencer stage: the sixteen codes are the whole list (R179). -/
def sequencer (m : Micro) (f : SeqFlags) (old t : State) : State :=
  match m.seq with
  | .next => seqNext old t
  | .k1 => seqK1 old t
  | .k2 => seqK2 old t
  | .zero => seqZero t
  | .jnz => seqJnz f m.adr old t
  | .jmp => seqJmp m.adr t
  | .call => seqCall m.adr old t
  | .ret => seqRet old t
  | .jz => seqJz f m.adr old t
  | .jn => seqJn f m.adr old t
  | .jc => seqJc f m.adr old t
  | .jo => seqJo f m.adr old t
  | .jl => seqJl f m.adr old t
  | .jnc => seqJnc f m.adr old t
  | .jno => seqJno f m.adr old t
  | .halt => seqHalt t

end Sys2Proof.Machine
end

