-- ==== Sys2Proof/Machine/WriteBackOps.lean ====
section
/-! DEFINITION. The write-back controller (spec/42_writeback_control.md R110 to R118) and the PC
auto-increment (R119, R120, R126).

Each operation takes the prior snapshot `old`, from which every address and operand is read (R82), and the
snapshot in progress `t`, on which its write lands. A later stage's write lands on top of an earlier one:
that gives HR to FB over the ALU (R116) and PC to the increment over FB (R120), the two priorities of R91. -/

namespace Sys2Proof.Machine

/-- FB = 0: nothing; not ASR (R111, R71). -/
def fbNone (t : State) : State := t
/-- FB = 1 (R112). -/
def fbIr (bus : Word) (t : State) : State := setIr bus t
/-- FB = 2: `PM[ASR]` at the prior ASR (R113). -/
def fbPm (bus : Word) (old t : State) : State := setPmCell old.asr bus t
/-- FB = 3: `bus[7:0]` (R114). -/
def fbPc (bus : Word) (t : State) : State := setPc (busLow bus) t
/-- FB = 4, reserved: nothing, exactly as FB = 0 (R115, R71). -/
def fbRsv (t : State) : State := t
/-- FB = 5 (R116). -/
def fbHr (bus : Word) (t : State) : State := setHr bus t
/-- FB = 6: `GR[sel]` (R117). -/
def fbGr (sel : BitVec 2) (bus : Word) (t : State) : State := setGr sel bus t
/-- FB = 7: `bus[7:0]` (R118). -/
def fbAsr (bus : Word) (t : State) : State := setAsr (busLow bus) t

/-- The write-back stage, all eight codes written out (R110, R71). -/
def writeBack (code : FbCode) (sel : BitVec 2) (bus : Word) (old t : State) : State :=
  match code with
  | .none => fbNone t
  | .ir => fbIr bus t
  | .pm => fbPm bus old t
  | .pc => fbPc bus t
  | .rsv => fbRsv t
  | .hr => fbHr bus t
  | .gr => fbGr sel bus t
  | .asr => fbAsr bus t

/-- P = 0: the auto-increment does nothing (R126). -/
def pcHold (t : State) : State := t
/-- P = 1: the PRIOR PC plus 1, over what FB wrote (R119, R120). -/
def pcInc (old t : State) : State := setPc (old.pc + 1#8) t

/-- The PC auto-increment. -/
def pcControl (code : PCode) (old t : State) : State :=
  match code with
  | .hold => pcHold t
  | .inc => pcInc old t

end Sys2Proof.Machine
end

