-- ==== Sys2Proof/Machine/Cycle.lean ====
section
/-! DEFINITION. The micro-cycle of one microinstruction (spec/40_cycle_decode.md R80, R90 to R93): the
combination of its seven fields' meanings in the spec's fixed order. Every stage reads the prior snapshot
`s` only (R82); the writes are collected and installed together (R81). -/

namespace Sys2Proof.Machine

/-- The ALU stage: it runs in every cycle, literal mode included (R80, R90). -/
def aluStage (m : Micro) (s : State) : AluRegs := alu m.alu (busSource m s) (aluRegs s)

/-- The literal path, TB = 7: only the ALU's outputs and the cycle counter change (R90). -/
def literalPath (m : Micro) (s : State) : State := tick (installAlu (aluStage m s) s)

/-- The normal path, TB not 7 (R91): ALU, write-back, PC auto-increment, loop control with L, sequencer. -/
def normalPath (view : FlagView) (m : Micro) (s : State) : State :=
  tick
    (sequencer m (seqFlags view (aluStage m s) s) s
      (loopControl m (busSource m s) s
        (pcControl m.p s
          (writeBack m.fb (selIndex m.s s) (busSource m s) s
            (installAlu (aluStage m s) s)))))

/-- One micro-cycle, under a given flag view. -/
def microCycleWith (view : FlagView) (m : Micro) (s : State) : State :=
  match m.tb with
  | .lit => literalPath m s
  | .ones => normalPath view m s
  | .ir => normalPath view m s
  | .pm => normalPath view m s
  | .pc => normalPath view m s
  | .ar => normalPath view m s
  | .hr => normalPath view m s
  | .gr => normalPath view m s

/-- One micro-cycle of this machine. -/
def microCycle (m : Micro) (s : State) : State := microCycleWith Config.seqFlagView m s

end Sys2Proof.Machine
end

