-- ==== Sys2Proof/Machine/Alu.lean ====
section
/-! DEFINITION. The meanings of the sixteen ALU rows (spec/43_alu.md R131 to R146; the operations are in AluOps.lean): each is the micro-cycle of the
word whose ALU field is that row's code, whatever the other fields `x` are. -/

namespace Sys2Proof.Machine

/-- ALU.NOP (R131). -/
def execAluNop (x : AluCtx) (s : State) : Host.Outcome State Fault Refusal :=
  .next (microCycle (x.word .nop) s)

/-- ALU.LD (R132). -/
def execAluLd (x : AluCtx) (s : State) : Host.Outcome State Fault Refusal :=
  .next (microCycle (x.word .ld) s)

/-- ALU.LDN (R133). -/
def execAluLdn (x : AluCtx) (s : State) : Host.Outcome State Fault Refusal :=
  .next (microCycle (x.word .ldn) s)

/-- ALU.CLR (R134). -/
def execAluClr (x : AluCtx) (s : State) : Host.Outcome State Fault Refusal :=
  .next (microCycle (x.word .clr) s)

/-- ALU.ADD (R135). -/
def execAluAdd (x : AluCtx) (s : State) : Host.Outcome State Fault Refusal :=
  .next (microCycle (x.word .add) s)

/-- ALU.ADDK (R136). -/
def execAluAddk (x : AluCtx) (s : State) : Host.Outcome State Fault Refusal :=
  .next (microCycle (x.word .addk) s)

/-- ALU.AND (R137). -/
def execAluAnd (x : AluCtx) (s : State) : Host.Outcome State Fault Refusal :=
  .next (microCycle (x.word .and) s)

/-- ALU.OR (R138). -/
def execAluOr (x : AluCtx) (s : State) : Host.Outcome State Fault Refusal :=
  .next (microCycle (x.word .or) s)

/-- ALU.ADDQ (R139). -/
def execAluAddq (x : AluCtx) (s : State) : Host.Outcome State Fault Refusal :=
  .next (microCycle (x.word .addq) s)

/-- ALU.LSL (R140). -/
def execAluLsl (x : AluCtx) (s : State) : Host.Outcome State Fault Refusal :=
  .next (microCycle (x.word .lsl) s)

/-- ALU.LSL32 (R141). -/
def execAluLsl32 (x : AluCtx) (s : State) : Host.Outcome State Fault Refusal :=
  .next (microCycle (x.word .lsl32) s)

/-- ALU.ASR (R142). -/
def execAluAsr (x : AluCtx) (s : State) : Host.Outcome State Fault Refusal :=
  .next (microCycle (x.word .asr) s)

/-- ALU.ASR32 (R143). -/
def execAluAsr32 (x : AluCtx) (s : State) : Host.Outcome State Fault Refusal :=
  .next (microCycle (x.word .asr32) s)

/-- ALU.LSR (R144). -/
def execAluLsr (x : AluCtx) (s : State) : Host.Outcome State Fault Refusal :=
  .next (microCycle (x.word .lsr) s)

/-- ALU.ROL (R145). -/
def execAluRol (x : AluCtx) (s : State) : Host.Outcome State Fault Refusal :=
  .next (microCycle (x.word .rol) s)

/-- ALU.ROL32 (R146). -/
def execAluRol32 (x : AluCtx) (s : State) : Host.Outcome State Fault Refusal :=
  .next (microCycle (x.word .rol32) s)

end Sys2Proof.Machine
end

