-- ==== Sys2Proof/Machine/BusSource.lean ====
section
/-! DEFINITION. The meanings of the eight bus-source rows (spec/41_bus_source.md R100 to R107; the sources are in Operands.lean): each is the micro-cycle of the
word whose TB field is that row's code, whatever the other fields `x` are. -/

namespace Sys2Proof.Machine

/-- TB.ONES (R100). -/
def execTbOnes (x : TbCtx) (s : State) : Host.Outcome State Fault Refusal :=
  .next (microCycle (x.word .ones) s)

/-- TB.IR (R101). -/
def execTbIr (x : TbCtx) (s : State) : Host.Outcome State Fault Refusal :=
  .next (microCycle (x.word .ir) s)

/-- TB.PM (R102). -/
def execTbPm (x : TbCtx) (s : State) : Host.Outcome State Fault Refusal :=
  .next (microCycle (x.word .pm) s)

/-- TB.PC (R103). -/
def execTbPc (x : TbCtx) (s : State) : Host.Outcome State Fault Refusal :=
  .next (microCycle (x.word .pc) s)

/-- TB.AR (R104). -/
def execTbAr (x : TbCtx) (s : State) : Host.Outcome State Fault Refusal :=
  .next (microCycle (x.word .ar) s)

/-- TB.HR (R105). -/
def execTbHr (x : TbCtx) (s : State) : Host.Outcome State Fault Refusal :=
  .next (microCycle (x.word .hr) s)

/-- TB.GR (R106). -/
def execTbGr (x : TbCtx) (s : State) : Host.Outcome State Fault Refusal :=
  .next (microCycle (x.word .gr) s)

/-- TB.LIT (R107). -/
def execTbLit (x : TbCtx) (s : State) : Host.Outcome State Fault Refusal :=
  .next (microCycle (x.word .lit) s)

end Sys2Proof.Machine
end

