-- ==== Sys2Proof/Machine/LoopControl.lean ====
section
/-! DEFINITION. The meanings of the four loop-counter rows (spec/42_writeback_control.md R121 to R124; in LoopOps.lean): each is the micro-cycle of the
word whose LC field is that row's code, whatever the other fields `x` are. -/

namespace Sys2Proof.Machine

/-- LC.HOLD (R121). -/
def execLcHold (x : LcCtx) (s : State) : Host.Outcome State Fault Refusal :=
  .next (microCycle (x.word .hold) s)

/-- LC.DEC (R122). -/
def execLcDec (x : LcCtx) (s : State) : Host.Outcome State Fault Refusal :=
  .next (microCycle (x.word .dec) s)

/-- LC.BUS (R123). -/
def execLcBus (x : LcCtx) (s : State) : Host.Outcome State Fault Refusal :=
  .next (microCycle (x.word .bus) s)

/-- LC.IMM (R124). -/
def execLcImm (x : LcCtx) (s : State) : Host.Outcome State Fault Refusal :=
  .next (microCycle (x.word .imm) s)

end Sys2Proof.Machine
end

