-- ==== Sys2Proof/Machine/PcControl.lean ====
section
/-! DEFINITION. The meanings of the two PC auto-increment rows (spec/42_writeback_control.md R119, R126; in WriteBackOps.lean): each is the micro-cycle of the
word whose P field is that row's code, whatever the other fields `x` are. -/

namespace Sys2Proof.Machine

/-- P.HOLD (R126). -/
def execPHold (x : PCtx) (s : State) : Host.Outcome State Fault Refusal :=
  .next (microCycle (x.word .hold) s)

/-- P.INC (R119). -/
def execPInc (x : PCtx) (s : State) : Host.Outcome State Fault Refusal :=
  .next (microCycle (x.word .inc) s)

end Sys2Proof.Machine
end

