-- ==== Sys2Proof/Machine/RegSelect.lean ====
section
/-! DEFINITION. The meanings of the two register-select rows (spec/40_cycle_decode.md R88, R89; the index is in Operands.lean): each is the micro-cycle of the
word whose S field is that row's code, whatever the other fields `x` are. -/

namespace Sys2Proof.Machine

/-- S.GRX (R88). -/
def execSGrx (x : SCtx) (s : State) : Host.Outcome State Fault Refusal :=
  .next (microCycle (x.word .grx) s)

/-- S.M (R89). -/
def execSM (x : SCtx) (s : State) : Host.Outcome State Fault Refusal :=
  .next (microCycle (x.word .m) s)

end Sys2Proof.Machine
end

