-- ==== Sys2Proof/Machine/Sequencer.lean ====
section
/-! DEFINITION. The meanings of the sixteen sequencer rows (spec/44_sequencer.md R161 to R176; the operations are in SequencerOps.lean): each is the micro-cycle of the
word whose SEQ field is that row's code, whatever the other fields `x` are. -/

namespace Sys2Proof.Machine

/-- SEQ.NEXT (R161). -/
def execSeqNext (x : SeqCtx) (s : State) : Host.Outcome State Fault Refusal :=
  .next (microCycle (x.word .next) s)

/-- SEQ.K1 (R162). -/
def execSeqK1 (x : SeqCtx) (s : State) : Host.Outcome State Fault Refusal :=
  .next (microCycle (x.word .k1) s)

/-- SEQ.K2 (R163). -/
def execSeqK2 (x : SeqCtx) (s : State) : Host.Outcome State Fault Refusal :=
  .next (microCycle (x.word .k2) s)

/-- SEQ.ZERO (R164). -/
def execSeqZero (x : SeqCtx) (s : State) : Host.Outcome State Fault Refusal :=
  .next (microCycle (x.word .zero) s)

/-- SEQ.JNZ (R165). -/
def execSeqJnz (x : SeqCtx) (s : State) : Host.Outcome State Fault Refusal :=
  .next (microCycle (x.word .jnz) s)

/-- SEQ.JMP (R166). -/
def execSeqJmp (x : SeqCtx) (s : State) : Host.Outcome State Fault Refusal :=
  .next (microCycle (x.word .jmp) s)

/-- SEQ.CALL (R167). -/
def execSeqCall (x : SeqCtx) (s : State) : Host.Outcome State Fault Refusal :=
  .next (microCycle (x.word .call) s)

/-- SEQ.RET (R168). -/
def execSeqRet (x : SeqCtx) (s : State) : Host.Outcome State Fault Refusal :=
  .next (microCycle (x.word .ret) s)

/-- SEQ.JZ (R169). -/
def execSeqJz (x : SeqCtx) (s : State) : Host.Outcome State Fault Refusal :=
  .next (microCycle (x.word .jz) s)

/-- SEQ.JN (R170). -/
def execSeqJn (x : SeqCtx) (s : State) : Host.Outcome State Fault Refusal :=
  .next (microCycle (x.word .jn) s)

/-- SEQ.JC (R171). -/
def execSeqJc (x : SeqCtx) (s : State) : Host.Outcome State Fault Refusal :=
  .next (microCycle (x.word .jc) s)

/-- SEQ.JO (R172). -/
def execSeqJo (x : SeqCtx) (s : State) : Host.Outcome State Fault Refusal :=
  .next (microCycle (x.word .jo) s)

/-- SEQ.JL (R173). -/
def execSeqJl (x : SeqCtx) (s : State) : Host.Outcome State Fault Refusal :=
  .next (microCycle (x.word .jl) s)

/-- SEQ.JNC (R174). -/
def execSeqJnc (x : SeqCtx) (s : State) : Host.Outcome State Fault Refusal :=
  .next (microCycle (x.word .jnc) s)

/-- SEQ.JNO (R175). -/
def execSeqJno (x : SeqCtx) (s : State) : Host.Outcome State Fault Refusal :=
  .next (microCycle (x.word .jno) s)

/-- SEQ.HALT (R176). -/
def execSeqHalt (x : SeqCtx) (s : State) : Host.Outcome State Fault Refusal :=
  .next (microCycle (x.word .halt) s)

end Sys2Proof.Machine
end

