-- ==== Sys2Proof/Machine/WriteBack.lean ====
section
/-! DEFINITION. The meanings of the eight bus-destination rows (spec/42_writeback_control.md R111 to R118; the writes are in WriteBackOps.lean): each is the micro-cycle of the
word whose FB field is that row's code, whatever the other fields `x` are. -/

namespace Sys2Proof.Machine

/-- FB.NONE (R111). -/
def execFbNone (x : FbCtx) (s : State) : Host.Outcome State Fault Refusal :=
  .next (microCycle (x.word .none) s)

/-- FB.IR (R112). -/
def execFbIr (x : FbCtx) (s : State) : Host.Outcome State Fault Refusal :=
  .next (microCycle (x.word .ir) s)

/-- FB.PM (R113). -/
def execFbPm (x : FbCtx) (s : State) : Host.Outcome State Fault Refusal :=
  .next (microCycle (x.word .pm) s)

/-- FB.PC (R114). -/
def execFbPc (x : FbCtx) (s : State) : Host.Outcome State Fault Refusal :=
  .next (microCycle (x.word .pc) s)

/-- FB.RSV (R115). -/
def execFbRsv (x : FbCtx) (s : State) : Host.Outcome State Fault Refusal :=
  .next (microCycle (x.word .rsv) s)

/-- FB.HR (R116). -/
def execFbHr (x : FbCtx) (s : State) : Host.Outcome State Fault Refusal :=
  .next (microCycle (x.word .hr) s)

/-- FB.GR (R117). -/
def execFbGr (x : FbCtx) (s : State) : Host.Outcome State Fault Refusal :=
  .next (microCycle (x.word .gr) s)

/-- FB.ASR (R118). -/
def execFbAsr (x : FbCtx) (s : State) : Host.Outcome State Fault Refusal :=
  .next (microCycle (x.word .asr) s)

end Sys2Proof.Machine
end

