-- ==== Sys2Proof/Machine/Dispatch.lean ====
section
/-! DEFINITION. One arm per constructor of `Instr`: each row of spec/opcode_table.json has its meaning. -/

namespace Sys2Proof.Machine

def exec (i : Instr) (s : State) : Host.Outcome State Fault Refusal :=
  match i with
  | .aluNop x => Sys2Proof.Machine.execAluNop x s
  | .aluLd x => Sys2Proof.Machine.execAluLd x s
  | .aluLdn x => Sys2Proof.Machine.execAluLdn x s
  | .aluClr x => Sys2Proof.Machine.execAluClr x s
  | .aluAdd x => Sys2Proof.Machine.execAluAdd x s
  | .aluAddk x => Sys2Proof.Machine.execAluAddk x s
  | .aluAnd x => Sys2Proof.Machine.execAluAnd x s
  | .aluOr x => Sys2Proof.Machine.execAluOr x s
  | .aluAddq x => Sys2Proof.Machine.execAluAddq x s
  | .aluLsl x => Sys2Proof.Machine.execAluLsl x s
  | .aluLsl32 x => Sys2Proof.Machine.execAluLsl32 x s
  | .aluAsr x => Sys2Proof.Machine.execAluAsr x s
  | .aluAsr32 x => Sys2Proof.Machine.execAluAsr32 x s
  | .aluLsr x => Sys2Proof.Machine.execAluLsr x s
  | .aluRol x => Sys2Proof.Machine.execAluRol x s
  | .aluRol32 x => Sys2Proof.Machine.execAluRol32 x s
  | .tbOnes x => Sys2Proof.Machine.execTbOnes x s
  | .tbIr x => Sys2Proof.Machine.execTbIr x s
  | .tbPm x => Sys2Proof.Machine.execTbPm x s
  | .tbPc x => Sys2Proof.Machine.execTbPc x s
  | .tbAr x => Sys2Proof.Machine.execTbAr x s
  | .tbHr x => Sys2Proof.Machine.execTbHr x s
  | .tbGr x => Sys2Proof.Machine.execTbGr x s
  | .tbLit x => Sys2Proof.Machine.execTbLit x s
  | .fbNone x => Sys2Proof.Machine.execFbNone x s
  | .fbIr x => Sys2Proof.Machine.execFbIr x s
  | .fbPm x => Sys2Proof.Machine.execFbPm x s
  | .fbPc x => Sys2Proof.Machine.execFbPc x s
  | .fbRsv x => Sys2Proof.Machine.execFbRsv x s
  | .fbHr x => Sys2Proof.Machine.execFbHr x s
  | .fbGr x => Sys2Proof.Machine.execFbGr x s
  | .fbAsr x => Sys2Proof.Machine.execFbAsr x s
  | .sGrx x => Sys2Proof.Machine.execSGrx x s
  | .sM x => Sys2Proof.Machine.execSM x s
  | .pHold x => Sys2Proof.Machine.execPHold x s
  | .pInc x => Sys2Proof.Machine.execPInc x s
  | .lcHold x => Sys2Proof.Machine.execLcHold x s
  | .lcDec x => Sys2Proof.Machine.execLcDec x s
  | .lcBus x => Sys2Proof.Machine.execLcBus x s
  | .lcImm x => Sys2Proof.Machine.execLcImm x s
  | .seqNext x => Sys2Proof.Machine.execSeqNext x s
  | .seqK1 x => Sys2Proof.Machine.execSeqK1 x s
  | .seqK2 x => Sys2Proof.Machine.execSeqK2 x s
  | .seqZero x => Sys2Proof.Machine.execSeqZero x s
  | .seqJnz x => Sys2Proof.Machine.execSeqJnz x s
  | .seqJmp x => Sys2Proof.Machine.execSeqJmp x s
  | .seqCall x => Sys2Proof.Machine.execSeqCall x s
  | .seqRet x => Sys2Proof.Machine.execSeqRet x s
  | .seqJz x => Sys2Proof.Machine.execSeqJz x s
  | .seqJn x => Sys2Proof.Machine.execSeqJn x s
  | .seqJc x => Sys2Proof.Machine.execSeqJc x s
  | .seqJo x => Sys2Proof.Machine.execSeqJo x s
  | .seqJl x => Sys2Proof.Machine.execSeqJl x s
  | .seqJnc x => Sys2Proof.Machine.execSeqJnc x s
  | .seqJno x => Sys2Proof.Machine.execSeqJno x s
  | .seqHalt x => Sys2Proof.Machine.execSeqHalt x s

end Sys2Proof.Machine
end

