-- ==== Sys2Proof/Machine/Step.lean ====
section
/-! DEFINITION. `step()`, "the only way the core's state advances" (spec/40_cycle_decode.md R80). The checks
come in the spec's order: `halted` first, then the uPC range, then the cycle (60_exceptions.md R194). -/

namespace Sys2Proof.Machine

/-- One step: a halted core is left as it is (R83), a uPC above 127 faults (R193), else the word at uPC is
decoded and executed (R84, R85). -/
def step (s : State) : Host.Outcome State Fault Refusal :=
  if s.halted then .next s
  else if upcInRange s then exec (decode (fetchWord s)) s
  else raiseUpcOutOfRange s

/-- `s` with an instruction of `nbits` bits `w` (the bits above them zero) in the cell that `step` fetches next.
The fetch needs the core not to be halted and uPC within the control store; a halted core is taken as
running, and a uPC above 127 as 0, so that the very next step runs the word (log entry 3). -/
def State.withFetchWord (s : State) (nbits w : Nat) : State :=
  let t := setHalted false (if upcInRange s then s else setUpc 0#8 s)
  setCsCell t.upc (BitVec.ofNat 32 (w % 2 ^ nbits)) t

end Sys2Proof.Machine
end

