-- ==== Sys2Proof/Machine/Interface.lean ====
section
/-! DEFINITION. What the host can do to the core (spec/00_scope.md R6; 70_reset_and_hazards.md R236). Every
action falls strictly between steps (20_memory.md R47), so a run is a list of actions. The read accessors are
the fields of `State` and `readPm`; reading has no side effect (60_exceptions.md R201). -/

namespace Sys2Proof.Machine

/-- The host writes one program-memory cell between steps (R47). -/
def hostWritePm (a : Byte) (v : Word) (s : State) : State := setPmCell a v s

/-- The host reads one program-memory cell between steps (R47). -/
def hostReadPm (a : Byte) (s : State) : Word := readPm a s

/-- The host's actions that can change state (R6, R236). -/
inductive HostAction where
  | load (img : CoreImage) (x : Snapshot)
  | step
  | writePm (a : Byte) (v : Word)
  deriving DecidableEq, Repr

/-- The effect of one host action. Initialisation is possible in every state, a halted or faulted one
included, and is the only way out of either (R211). -/
def hostAct (act : HostAction) (s : State) : Host.Outcome State Fault Refusal :=
  match act with
  | .load img x => .next (initCore img x)
  | .step => Sys2Proof.Machine.step s
  | .writePm a v => .next (hostWritePm a v s)

end Sys2Proof.Machine
end

