-- ==== Sys2Proof/Safety.lean ====
section
/-! DEFINITION. What counts as a good state and a safe run, in the terms the claims use: the final and the
faulted states, the invariants of the state, the loader's contract, and the shapes in which the results of
the stages are stated. -/

namespace Sys2Proof.Safety

open Sys2Proof.Machine

/-! ## Ends of a run (spec/70_reset_and_hazards.md R214) -/

/-- A run has ended exactly when `halted` is true (R214, D21). -/
def final (s : State) : Bool := s.halted

/-- A faulted state is neither final nor able to step (R193, R214). -/
def faulted (s : State) : Bool := !s.halted && !upcInRange s

/-! ## Invariants -/

/-- L agrees with LC: what R125 establishes in every non-literal cycle and R213 point 6 asks of the loader. -/
abbrev LoopFlagAgrees (s : State) : Prop := s.l = (s.lc == 0#8)

/-- uSP holds an address of the control store (R33, R213 point 4). -/
abbrev ReturnInRange (s : State) : Prop := s.usp.toNat < csSize

/-- The state invariant: canonical memories, L in agreement with LC, uSP in range. -/
abbrev Inv (s : State) : Prop := s.memoryWf = true ∧ LoopFlagAgrees s ∧ ReturnInRange s

/-- A microinstruction that does not run past its own address: it stays (TB = 7) or its sequencer code is
neither NEXT nor a conditional jump (R213 point 5). -/
def NoFallThrough (m : Micro) : Prop :=
  m.tb = .lit ∨ m.seq = .k1 ∨ m.seq = .k2 ∨ m.seq = .zero ∨ m.seq = .jmp ∨ m.seq = .call ∨ m.seq = .ret ∨
    m.seq = .halt

/-- The loader's contract for a run without a fault, every path by which a value reaches uPC (R213 points 2
to 5, points 3 and 4 taken for all entries and always). -/
def LoaderContract (s : State) : Prop :=
  s.upc.toNat < csSize ∧ ReturnInRange s ∧ (∀ i : BitVec 4, (readK1 i s).toNat < csSize) ∧
    (∀ i : BitVec 2, (readK2 i s).toNat < csSize) ∧ NoFallThrough (decodeMicro (s.cs.read 127))

/-! ## Shapes of results -/

/-- `s16(v)`, the two's-complement reading of a 16-bit value (spec/00_scope.md section 5). -/
def s16 (v : Nat) : Int := if v < 32768 then (v : Int) else (v : Int) - 65536

/-- Bit `k` of a number. -/
def bitOf (v k : Nat) : Nat := v / 2 ^ k % 2

/-- What the ALU stage leaves: AR, Z, N, O, C, and HR where write-back does not take it. -/
def AluResult (m : Micro) (t : State) (ar hr : Nat) (z n o c : Prop) : Prop :=
  t.ar.toNat = ar ∧ (t.z = true ↔ z) ∧ (t.n = true ↔ n) ∧ (t.o = true ↔ o) ∧ (t.c = true ↔ c) ∧
    (m.tb = .lit ∨ m.fb ≠ .hr → t.hr.toNat = hr)

/-- The bus value `v` reaches every consumer of the cycle (spec/41_bus_source.md R108): the ALU, the
destination FB selects, and the LC load of LC control 2. (HR under ALU codes 10 and 12, and PC under P = 1,
have a second writer; those cases are stated by themselves.) -/
def BusReaches (m : Micro) (v : Word) (s t : State) : Prop :=
  (t.ar = (alu m.alu v (aluRegs s)).ar ∧ t.z = (alu m.alu v (aluRegs s)).z ∧
    t.n = (alu m.alu v (aluRegs s)).n ∧ t.o = (alu m.alu v (aluRegs s)).o ∧
    t.c = (alu m.alu v (aluRegs s)).c) ∧
  (m.fb = .ir → t.ir = v) ∧
  (m.fb = .pm → t.pm = s.pm.write s.asr.toNat v) ∧
  (m.fb = .pc → m.p = .hold → t.pc.toNat = v.toNat % 256) ∧
  (m.fb = .hr → m.alu ≠ .lsl32 → m.alu ≠ .asr32 → t.hr = v) ∧
  (m.fb = .gr → readGr (selIndex m.s s) t = v) ∧
  (m.fb = .asr → t.asr.toNat = v.toNat % 256) ∧
  (m.lc = .bus → t.lc.toNat = v.toNat % 256)

/-- The four general registers are unchanged. -/
def GrKept (s t : State) : Prop := t.gr0 = s.gr0 ∧ t.gr1 = s.gr1 ∧ t.gr2 = s.gr2 ∧ t.gr3 = s.gr3

/-- Every bus destination other than the one `m.fb` selects is unchanged, PC and HR where their other writer
(P = 1; ALU codes 10 and 12) is not at work. -/
def OtherTargetsKept (m : Micro) (s t : State) : Prop :=
  (m.fb ≠ .ir → t.ir = s.ir) ∧ (m.fb ≠ .pm → t.pm = s.pm) ∧ (m.fb ≠ .pc → m.p = .hold → t.pc = s.pc) ∧
    (m.fb ≠ .hr → m.alu ≠ .lsl32 → m.alu ≠ .asr32 → t.hr = s.hr) ∧ (m.fb ≠ .gr → GrKept s t) ∧
    (m.fb ≠ .asr → t.asr = s.asr)

/-- Everything but AR, HR, Z, N, O, C and the cycle counter is unchanged: what a literal-mode cycle leaves
alone (spec/40_cycle_decode.md R90). -/
def OnlyAluChanged (s t : State) : Prop :=
  t.pc = s.pc ∧ t.asr = s.asr ∧ GrKept s t ∧ t.ir = s.ir ∧ t.upc = s.upc ∧ t.usp = s.usp ∧ t.lc = s.lc ∧
    t.l = s.l ∧ t.halted = s.halted ∧ t.pm = s.pm ∧ t.cs = s.cs ∧ t.k1 = s.k1 ∧ t.k2 = s.k2

/-- The next uPC, uSP and halt latch of a cycle. -/
def SeqResult (t : State) (upc : Nat) (usp : Byte) (halted : Bool) : Prop :=
  t.upc.toNat = upc ∧ t.usp = usp ∧ t.halted = halted

/-- The uPC a conditional jump leaves: ADR when taken, else uPC + 1 modulo 256 (spec/44_sequencer.md R177). -/
def jumpsTo (cond : Bool) (adr : BitVec 7) (s : State) : Nat :=
  if cond then adr.toNat else (s.upc.toNat + 1) % 256

end Sys2Proof.Safety
end

