-- ==== Sys2Proof/Certificates/Slice0/Obligations.lean ====
section
/-! DEFINITION. The statements for the provers, each from the rules of spec/ its docstring names. A statement
that rests on a decision of spec/92_eei_decisions.md says so and names its log entry. -/

open Sys2Proof Sys2Proof.Machine Sys2Proof.Safety

/-! ## Encoding -/

/-- Decoding an encoded well-formed instruction gives it back, for all rows and every operand. Rests on the
field positions of decision D1 (log 4) and on the naming of a word by its leading field (log 16). -/
def Obligations.DecodeEncodeIsIdentity : Prop :=
  ∀ i : Instr, i.wellFormed = true → decode (encode i) = i

/-- Whatever row an instruction is, well formed or not, its word decodes to the same microinstruction, and it
is one of the rows that word matches (R69). Positions: D1 (log 4). -/
def Obligations.DecodeEncodeKeepsMicroinstruction : Prop :=
  ∀ i : Instr, (decode (encode i)).micro = i.micro ∧ i ∈ (decodeMicro (encode i)).rows

/-- Encoding a decoded word gives back its 25 used bits (R61) with bits 31:25 zero (R67). Positions: D1
(log 4). -/
def Obligations.EncodeDecodeKeepsUsedBits : Prop :=
  ∀ w : Word32, encode (decode w) = w &&& 0x01FFFFFF#32

/-- Bits 31:25 are ignored (R67), decision D19 (log 15): words that agree below bit 25 are one instruction. -/
def Obligations.UnusedBitsIgnored : Prop :=
  ∀ w w' : Word32, w.extractLsb' 0 25 = w'.extractLsb' 0 25 → decode w = decode w'

/-- The eight fields and the two immediates are the slices of R61, R63, R64 and R65 (R85), and IMM8 shares its
bits with ADR and the lowest bit of SEQ, `IMM8 = 128 * SEQ[0] + ADR` (R64). Positions: D1 (log 4). -/
def Obligations.WordSlices : Prop :=
  ∀ w : Word32, let m := (decode w).micro
    m.alu.bits = w.extractLsb' 21 4 ∧ m.tb.bits = w.extractLsb' 18 3 ∧ m.fb.bits = w.extractLsb' 15 3 ∧
    m.s.bits = w.extractLsb' 14 1 ∧ m.p.bits = w.extractLsb' 13 1 ∧ m.lc.bits = w.extractLsb' 11 2 ∧
    m.seq.bits = w.extractLsb' 7 4 ∧ m.adr = w.extractLsb' 0 7 ∧
    m.lit16 = w.extractLsb' 0 16 ∧ m.imm8 = w.extractLsb' 0 8 ∧
    m.imm8.toNat = 128 * (m.seq.bits.toNat % 2) + m.adr.toNat

/-- A word matches a row of the opcode table exactly when decoding gives that row in the row's field group:
"a decoder matches a word against one row of each field group" (R69). Positions: D1 (log 4). -/
def Obligations.RowsMatchOpcodeTable : Prop :=
  ∀ (i : Instr) (w : Word32),
    i.fitsRow w = true ↔ ((decode w).micro.row i.group).tableRow = i.tableRow

/-- The seven rows a word matches all execute as the one word (R69): how the decoder names a word (log 16)
cannot be observed. -/
def Obligations.RowsExecuteAlike : Prop :=
  ∀ (w : Word32) (i j : Instr) (s : State), i ∈ (decodeMicro w).rows → j ∈ (decodeMicro w).rows →
    exec i s = exec j s

/-- Seven words decode to the fields that R61's slices of them are, five of them words of 95_test_vectors.md. The
positions are decision D1 (log 4), the numbers of TB = 2 and FB = 3 the source's list order (log 19); the row
each word is named by is the model's choice (log 16). -/
def Obligations.WordsDecode : Prop :=
  decode 0x003C1234#32 = .aluLd ⟨.lit, .none, .grx, .hold, .bus, .jnz, 0x34#7⟩ ∧
  decode 0x000B8000#32 = .tbPm ⟨.nop, .asr, .grx, .hold, .hold, .next, 0#7⟩ ∧
  decode 0x00018000#32 = .fbPc ⟨.nop, .ones, .grx, .hold, .hold, .next, 0#7⟩ ∧
  decode 0x00004000#32 = .sM ⟨.nop, .ones, .none, .hold, .hold, .next, 0#7⟩ ∧
  decode 0x00002000#32 = .pInc ⟨.nop, .ones, .none, .grx, .hold, .next, 0#7⟩ ∧
  decode 0x000018FF#32 = .lcImm ⟨.nop, .ones, .none, .grx, .hold, .k1, 0x7F#7⟩ ∧
  decode 0x00000320#32 = .seqCall ⟨.nop, .ones, .none, .grx, .hold, .hold, 0x20#7⟩

/-! ## The step -/

/-- A step of a core that is not halted, with uPC in range, is exec of the instruction decoded from CS[uPC]
(R80, R84), and exec is all it does. -/
def Obligations.StepRunsDecodedInstruction : Prop :=
  ∀ s : State, s.halted = false → s.upc.toNat ≤ 127 → step s = exec (decode (s.cs.read s.upc.toNat)) s

/-- A halted core never changes again, however often it is stepped, whatever its uPC (R83). -/
def Obligations.HaltedStepIsNoOp : Prop :=
  ∀ (s : State) (k : Nat), s.halted = true → step s = .next s ∧ Sys2Proof.core.run k s = .next s

/-- A core that is not halted, with uPC above 127, faults with UPC_OUT_OF_RANGE(uPC), and no number of steps
gives a state (R193). The fault is decision D6 (log 9). -/
def Obligations.OutOfRangeUpcFaults : Prop :=
  ∀ (s : State) (k : Nat), s.halted = false → 127 < s.upc.toNat →
    step s = .fault (.upcOutOfRange s.upc) ∧ Sys2Proof.core.run (k + 1) s = .fault (.upcOutOfRange s.upc)

/-- The step is total but for that one condition (R94): it answers a next state exactly when the core is
halted or uPC is within 0..127, and it never refuses. The fault is decision D6 (log 9). -/
def Obligations.StepIsTotalInRange : Prop :=
  ∀ s : State, ((∃ t, step s = .next t) ↔ s.halted = true ∨ s.upc.toNat ≤ 127) ∧
    ∀ r : Refusal, step s ≠ .refused r

/-- A word placed where the step fetches is the word the next step runs, and the placing leaves alone everything
but that cell, the halt latch, which it clears, and a uPC above 127, which it sets to 0. The model's own
definition (log 3). -/
def Obligations.FetchWordRunsNext : Prop :=
  ∀ (s : State) (w : Nat), s.memoryWf = true → w < 2 ^ 32 →
    let t := s.withFetchWord 32 w
    step t = exec (decode (BitVec.ofNat 32 w)) t ∧ t.halted = false ∧
      (s.upc.toNat ≤ 127 → t.upc = s.upc) ∧ (127 < s.upc.toNat → t.upc = 0#8) ∧
      { t with halted := s.halted, upc := s.upc, cs := s.cs } = s ∧
      ∀ a, a ≠ t.upc.toNat → t.cs.read a = s.cs.read a

/-! ## Initialisation -/

/-- The initialiser installs the four memories and the snapshot, clears `halted` and zeroes `cycleCount`
(R210), and leaves the memories in canonical form. For every snapshot: the parameter INIT is left free. -/
def Obligations.InitialiserInstalls : Prop :=
  ∀ (img : CoreImage) (x : Snapshot), let s := initCore img x
    (∀ a : Fin 256, s.pm.read a.val = img.pm[a]) ∧ (∀ a : Fin 128, s.cs.read a.val = img.cs[a]) ∧
    (∀ a : Fin 16, s.k1.read a.val = img.k1[a]) ∧ (∀ a : Fin 4, s.k2.read a.val = img.k2[a]) ∧
    (s.pc = x.pc ∧ s.asr = x.asr ∧ s.ar = x.ar ∧ s.hr = x.hr ∧ s.gr0 = x.gr0 ∧ s.gr1 = x.gr1 ∧
      s.gr2 = x.gr2 ∧ s.gr3 = x.gr3 ∧ s.ir = x.ir ∧ s.upc = x.upc ∧ s.usp = x.usp ∧ s.lc = x.lc) ∧
    (s.z = x.z ∧ s.n = x.n ∧ s.o = x.o ∧ s.c = x.c ∧ s.l = x.l) ∧
    s.halted = false ∧ s.cycleCount = 0 ∧ s.memoryWf = true

/-- What the spec states of the state after initialisation with nothing loaded (R32): the memories zero,
`halted` false, `cycleCount` 0. The registers and flags, the model's choice (log 2), are left out. -/
def Obligations.ResetLeaves : Prop :=
  (∀ a, State.reset.pm.read a = 0#16) ∧ (∀ a, State.reset.cs.read a = 0#32) ∧
  (∀ a, State.reset.k1.read a = 0#8) ∧ (∀ a, State.reset.k2.read a = 0#8) ∧
  State.reset.halted = false ∧ State.reset.cycleCount = 0

/-- The state after reset meets the invariant and its uPC is in range. Rests on the model's snapshot
(log 2). -/
def Obligations.ResetMeetsInvariant : Prop :=
  Inv State.reset ∧ State.reset.upc.toNat < 128

/-! ## ALU rows (43_alu.md). Each for every other field of the word, literal mode included -/

/-- NOP leaves AR, HR and every flag (R131); LD loads the bus (R132); LDN its complement (R133); no flag. -/
def Obligations.AluMoveResults : Prop :=
  ∀ (x : AluCtx) (s : State),
    (∃ t, exec (.aluNop x) s = .next t ∧
      AluResult (x.word .nop) t s.ar.toNat s.hr.toNat (s.z = true) (s.n = true) (s.o = true) (s.c = true)) ∧
    (∃ t, exec (.aluLd x) s = .next t ∧
      AluResult (x.word .ld) t (busSource (x.word .ld) s).toNat s.hr.toNat
        (s.z = true) (s.n = true) (s.o = true) (s.c = true)) ∧
    (∃ t, exec (.aluLdn x) s = .next t ∧
      AluResult (x.word .ldn) t (65535 - (busSource (x.word .ldn) s).toNat) s.hr.toNat
        (s.z = true) (s.n = true) (s.o = true) (s.c = true))

/-- CLR: AR 0, Z true, N false, O and C kept (R134). -/
def Obligations.AluClrResult : Prop :=
  ∀ (x : AluCtx) (s : State), ∃ t, exec (.aluClr x) s = .next t ∧
    AluResult (x.word .clr) t 0 s.hr.toNat True False (s.o = true) (s.c = true)

/-- ADD: the sum modulo 65536, Z and N of it, C = s16(r) <= s16(AR), O by bits 7 (R135). C's reading of both
sides as signed is decision D20 (log 14). -/
def Obligations.AluAddResult : Prop :=
  ∀ (x : AluCtx) (s : State), let b := (busSource (x.word .add) s).toNat
    let r := (s.ar.toNat + b) % 65536
    ∃ t, exec (.aluAdd x) s = .next t ∧
      AluResult (x.word .add) t r s.hr.toNat (r = 0) (bitOf r 15 = 1)
        (bitOf b 7 = bitOf r 7 ∧ bitOf s.ar.toNat 7 ≠ bitOf r 7) (s16 r ≤ s16 s.ar.toNat)

/-- ADDK: as ADD, O kept (R136). An addition, as the spec has it (log 18); C by decision D20 (log 14). -/
def Obligations.AluAddkResult : Prop :=
  ∀ (x : AluCtx) (s : State), let r := (s.ar.toNat + (busSource (x.word .addk) s).toNat) % 65536
    ∃ t, exec (.aluAddk x) s = .next t ∧
      AluResult (x.word .addk) t r s.hr.toNat (r = 0) (bitOf r 15 = 1) (s.o = true)
        (s16 r ≤ s16 s.ar.toNat)

/-- AND and OR, bit by bit, with Z and N of the result (R137, R138). -/
def Obligations.AluLogicResults : Prop :=
  ∀ (x : AluCtx) (s : State),
    (∃ t, exec (.aluAnd x) s = .next t ∧
      (∀ k < 16, t.ar.getLsbD k = true ↔
        s.ar.getLsbD k = true ∧ (busSource (x.word .and) s).getLsbD k = true) ∧
      AluResult (x.word .and) t t.ar.toNat s.hr.toNat (t.ar.toNat = 0) (bitOf t.ar.toNat 15 = 1)
        (s.o = true) (s.c = true)) ∧
    (∃ t, exec (.aluOr x) s = .next t ∧
      (∀ k < 16, t.ar.getLsbD k = true ↔
        s.ar.getLsbD k = true ∨ (busSource (x.word .or) s).getLsbD k = true) ∧
      AluResult (x.word .or) t t.ar.toNat s.hr.toNat (t.ar.toNat = 0) (bitOf t.ar.toNat 15 = 1)
        (s.o = true) (s.c = true))

/-- ADDQ: the sum modulo 65536 and no flag (R139). -/
def Obligations.AluAddqResult : Prop :=
  ∀ (x : AluCtx) (s : State), ∃ t, exec (.aluAddq x) s = .next t ∧
    AluResult (x.word .addq) t ((s.ar.toNat + (busSource (x.word .addq) s).toNat) % 65536) s.hr.toNat
      (s.z = true) (s.n = true) (s.o = true) (s.c = true)

/-- LSL: AR times 2 modulo 65536, C the OLD BIT 7 (R140, R149). That C follows the table, not the source's
scenario, is the resolution of conflict C1 (log 17). -/
def Obligations.AluLslResult : Prop :=
  ∀ (x : AluCtx) (s : State), let r := s.ar.toNat * 2 % 65536
    ∃ t, exec (.aluLsl x) s = .next t ∧
      AluResult (x.word .lsl) t r s.hr.toNat (r = 0) (bitOf r 15 = 1) (s.o = true)
        (bitOf s.ar.toNat 7 = 1)

/-- LSL32: the pair times 2 modulo 2^32, its halves to AR and HR, Z and N over all 32 bits (R141). The scope
of Z and N is decision D10 (log 13). -/
def Obligations.AluLsl32Result : Prop :=
  ∀ (x : AluCtx) (s : State), let v := (s.ar.toNat * 65536 + s.hr.toNat) * 2 % 4294967296
    ∃ t, exec (.aluLsl32 x) s = .next t ∧
      AluResult (x.word .lsl32) t (v / 65536) (v % 65536) (v = 0) (bitOf v 31 = 1) (s.o = true)
        (bitOf s.ar.toNat 7 = 1)

/-- ASR: bit 15 kept, the rest moved right, C the old bit 0 (R142). -/
def Obligations.AluAsrResult : Prop :=
  ∀ (x : AluCtx) (s : State), let r := s.ar.toNat / 2 + bitOf s.ar.toNat 15 * 32768
    ∃ t, exec (.aluAsr x) s = .next t ∧
      AluResult (x.word .asr) t r s.hr.toNat (r = 0) (bitOf r 15 = 1) (s.o = true)
        (bitOf s.ar.toNat 0 = 1)

/-- ASR32: the pair arithmetic-shifted right, C the old HR bit 0, Z and N over the new AR (R143). The scope of
Z and N is decision D11 (log 13). -/
def Obligations.AluAsr32Result : Prop :=
  ∀ (x : AluCtx) (s : State),
    let v := (s.ar.toNat * 65536 + s.hr.toNat) / 2 + bitOf s.ar.toNat 15 * 2147483648
    ∃ t, exec (.aluAsr32 x) s = .next t ∧
      AluResult (x.word .asr32) t (v / 65536) (v % 65536) (v / 65536 = 0) (bitOf (v / 65536) 15 = 1)
        (s.o = true) (bitOf s.hr.toNat 0 = 1)

/-- LSR: AR div 2, C the old bit 0, N always false (R144). -/
def Obligations.AluLsrResult : Prop :=
  ∀ (x : AluCtx) (s : State), let r := s.ar.toNat / 2
    ∃ t, exec (.aluLsr x) s = .next t ∧
      AluResult (x.word .lsr) t r s.hr.toNat (r = 0) False (s.o = true) (bitOf s.ar.toNat 0 = 1)

/-- ROL: bit 15 wraps to bit 0, C the OLD BIT 7 (R145, R149). -/
def Obligations.AluRolResult : Prop :=
  ∀ (x : AluCtx) (s : State), let r := s.ar.toNat * 2 % 65536 + bitOf s.ar.toNat 15
    ∃ t, exec (.aluRol x) s = .next t ∧
      AluResult (x.word .rol) t r s.hr.toNat (r = 0) (bitOf r 15 = 1) (s.o = true)
        (bitOf s.ar.toNat 7 = 1)

/-- ROL32: AR takes the LOWER half of the rotated pair, HR is kept, C the old HR bit 0 (R146). The scope of Z
and N is decision D11 (log 13). -/
def Obligations.AluRol32Result : Prop :=
  ∀ (x : AluCtx) (s : State), let r := s.hr.toNat * 2 % 65536 + bitOf s.ar.toNat 15
    ∃ t, exec (.aluRol32 x) s = .next t ∧
      AluResult (x.word .rol32) t r s.hr.toNat (r = 0) (bitOf r 15 = 1) (s.o = true)
        (bitOf s.hr.toNat 0 = 1)

/-! ## Bus-source rows (41_bus_source.md) -/

/-- The bus carries 0xFFFF (R100), IR (R101), AR (R104) or HR (R105), the value before the cycle, to every
consumer (R108). -/
def Obligations.TbConstantAndRegisterSources : Prop :=
  ∀ (x : TbCtx) (s : State),
    (∃ t, exec (.tbOnes x) s = .next t ∧ BusReaches (x.word .ones) 0xFFFF#16 s t) ∧
    (∃ t, exec (.tbIr x) s = .next t ∧ BusReaches (x.word .ir) s.ir s t) ∧
    (∃ t, exec (.tbAr x) s = .next t ∧ BusReaches (x.word .ar) s.ar s t) ∧
    (∃ t, exec (.tbHr x) s = .next t ∧ BusReaches (x.word .hr) s.hr s t)

/-- The bus carries the program-memory cell at the ASR from before the cycle, also when the cycle writes ASR
or that cell; with FB = 2 every cell reads as before (R102, R46). -/
def Obligations.TbPmSource : Prop :=
  ∀ (x : TbCtx) (s : State), s.memoryWf = true → ∃ t, exec (.tbPm x) s = .next t ∧
    BusReaches (x.word .pm) (s.pm.read s.asr.toNat) s t ∧
    (x.fb = .asr → t.asr.toNat = (s.pm.read s.asr.toNat).toNat % 256) ∧
    (x.fb = .pm → ∀ a, t.pm.read a = s.pm.read a)

/-- The bus carries the PC from before the cycle, zero-extended, also when P = 1 increments it (R103). -/
def Obligations.TbPcSource : Prop :=
  ∀ (x : TbCtx) (s : State), ∃ t, exec (.tbPc x) s = .next t ∧
    BusReaches (x.word .pc) (BitVec.ofNat 16 s.pc.toNat) s t ∧
    (x.fb = .asr → t.asr = s.pc) ∧ (x.p = .inc → t.pc.toNat = (s.pc.toNat + 1) % 256)

/-- The bus carries GR[sel] (R106). -/
def Obligations.TbGrSource : Prop :=
  ∀ (x : TbCtx) (s : State), ∃ t, exec (.tbGr x) s = .next t ∧
    BusReaches (x.word .gr) (readGr (selIndex x.s s) s) s t

/-- The bus carries the low 16 bits of the word itself, to the ALU alone: FB, P, LC control and SEQ are not
executed, and uPC stays (R107). -/
def Obligations.TbLitSource : Prop :=
  ∀ (x : TbCtx) (s : State), ∃ t, exec (.tbLit x) s = .next t ∧
    (let v := (encode (.tbLit x)).extractLsb' 0 16
     t.ar = (alu x.alu v (aluRegs s)).ar ∧ t.hr = (alu x.alu v (aluRegs s)).hr ∧
      t.z = (alu x.alu v (aluRegs s)).z ∧ t.n = (alu x.alu v (aluRegs s)).n ∧
      t.o = (alu x.alu v (aluRegs s)).o ∧ t.c = (alu x.alu v (aluRegs s)).c) ∧
    t.pc = s.pc ∧ t.asr = s.asr ∧ GrKept s t ∧ t.ir = s.ir ∧ t.pm = s.pm ∧ t.lc = s.lc ∧ t.upc = s.upc ∧
    t.usp = s.usp ∧ t.halted = s.halted

/-- A literal-mode cycle, whatever row it is seen through: nothing but AR, HR (codes 10 and 12 only), Z, N,
O, C and the cycle counter changes; HR changes for codes 10 and 12 only (R90). That L is not recomputed is
decision D9 (log 12); the counter is D7 (log 10). -/
def Obligations.LiteralModeSkipsStages : Prop :=
  ∀ (i : Instr) (s : State), i.micro.tb = .lit → ∃ t, exec i s = .next t ∧ OnlyAluChanged s t ∧
    (i.micro.alu ≠ .lsl32 → i.micro.alu ≠ .asr32 → t.hr = s.hr) ∧ t.cycleCount = s.cycleCount + 1

/-! ## Register select, PC, loop counter -/

/-- S = 0 selects GR[IR[11:10]], S = 1 GR[IR[9:8]], for the read of TB = 6 and the write of FB = 6 (R87 to
R89). The positions are decision D2 (log 5), the polarity D3 (log 6). -/
def Obligations.RegisterSelectRows : Prop :=
  ∀ (x : SCtx) (s : State), x.tb ≠ .lit →
    (let k := BitVec.ofNat 2 (s.ir.toNat / 1024 % 4)
     ∃ t, exec (.sGrx x) s = .next t ∧
      (x.tb = .gr → BusReaches (x.word .grx) (readGr k s) s t) ∧
      (x.fb = .gr → readGr k t = busSource (x.word .grx) s ∧ ∀ j, j ≠ k → readGr j t = readGr j s)) ∧
    (let k := BitVec.ofNat 2 (s.ir.toNat / 256 % 4)
     ∃ t, exec (.sM x) s = .next t ∧
      (x.tb = .gr → BusReaches (x.word .m) (readGr k s) s t) ∧
      (x.fb = .gr → readGr k t = busSource (x.word .m) s ∧ ∀ j, j ≠ k → readGr j t = readGr j s))

/-- P = 1 gives the PC from before the cycle plus 1 modulo 256, whatever FB is; P = 0 leaves PC to FB = 3
(R119, R126, R120). -/
def Obligations.PcControlRows : Prop :=
  ∀ (x : PCtx) (s : State), x.tb ≠ .lit →
    (∃ t, exec (.pInc x) s = .next t ∧ t.pc.toNat = (s.pc.toNat + 1) % 256) ∧
    (∃ t, exec (.pHold x) s = .next t ∧
      t.pc.toNat = if x.fb = .pc then (busSource (x.word .hold) s).toNat % 256 else s.pc.toNat)

/-- LC is kept, decremented modulo 256, loaded from bus[7:0] or loaded from the word's low byte, whose bits the
other fields still use as in the same word with HOLD (R121 to R124); L becomes (new LC == 0) in every case. -/
def Obligations.LoopCounterRows : Prop :=
  ∀ (x : LcCtx) (s : State), x.tb ≠ .lit →
    (∃ t, exec (.lcHold x) s = .next t ∧ t.lc.toNat = s.lc.toNat ∧ (t.l = true ↔ t.lc.toNat = 0)) ∧
    (∃ t, exec (.lcDec x) s = .next t ∧ t.lc.toNat = (s.lc.toNat + 255) % 256 ∧
      (t.l = true ↔ t.lc.toNat = 0)) ∧
    (∃ t, exec (.lcBus x) s = .next t ∧ t.lc.toNat = (busSource (x.word .bus) s).toNat % 256 ∧
      (t.l = true ↔ t.lc.toNat = 0)) ∧
    (∃ t, exec (.lcImm x) s = .next t ∧ t.lc = (encode (.lcImm x)).extractLsb' 0 8 ∧
      (t.l = true ↔ t.lc.toNat = 0) ∧
      ∃ u, exec (.lcHold x) s = .next u ∧ t = { u with lc := t.lc, l := t.l })

/-! ## Bus-destination rows (42_writeback_control.md), outside literal mode -/

/-- FB = 0 and FB = 4 write nothing, in particular not ASR, and behave exactly alike (R111, R115). -/
def Obligations.FbNoOpRows : Prop :=
  ∀ (x : FbCtx) (s : State), x.tb ≠ .lit →
    (∃ t, exec (.fbNone x) s = .next t ∧ t.asr = s.asr ∧ OtherTargetsKept (x.word .none) s t) ∧
    (∃ t, exec (.fbRsv x) s = .next t ∧ t.asr = s.asr ∧ OtherTargetsKept (x.word .rsv) s t ∧
      exec (.fbNone x) s = .next t)

/-- FB = 1 writes the bus to IR, and the word's own dispatch still takes the old IR (R112); FB = 7 writes its
low 8 bits to ASR, and no instruction with another FB code writes ASR (R118). -/
def Obligations.FbIrAndAsrRows : Prop :=
  ∀ (x : FbCtx) (s : State), x.tb ≠ .lit →
    (∃ t, exec (.fbIr x) s = .next t ∧ t.ir = busSource (x.word .ir) s ∧
      OtherTargetsKept (x.word .ir) s t ∧ (x.seq = .k1 → t.upc = readK1 (irOp s.ir) s) ∧
      (x.seq = .k2 → t.upc = readK2 (irMode s.ir) s)) ∧
    (∃ t, exec (.fbAsr x) s = .next t ∧ t.asr.toNat = (busSource (x.word .asr) s).toNat % 256 ∧
      OtherTargetsKept (x.word .asr) s t) ∧
    (∀ (i : Instr) (t : State), i.micro.fb ≠ .asr → exec i s = .next t → t.asr = s.asr)

/-- FB = 3 writes bus[7:0] to PC, unless P = 1, whose increment of the old PC wins (R114, R120). -/
def Obligations.FbPcRow : Prop :=
  ∀ (x : FbCtx) (s : State), x.tb ≠ .lit → ∃ t, exec (.fbPc x) s = .next t ∧
    t.pc.toNat = (if x.p = .inc then (s.pc.toNat + 1) % 256 else (busSource (x.word .pc) s).toNat % 256) ∧
    OtherTargetsKept (x.word .pc) s t

/-- FB = 5 writes the bus to HR, also when ALU code 10 or 12 produces a new HR; AR, Z, N, O and C of the ALU code
are still written (R116). The priority is decision D5 (log 8). -/
def Obligations.FbHrRow : Prop :=
  ∀ (x : FbCtx) (s : State), x.tb ≠ .lit → ∃ t, exec (.fbHr x) s = .next t ∧
    t.hr = busSource (x.word .hr) s ∧
    (let a := alu x.alu (busSource (x.word .hr) s) (aluRegs s)
     t.ar = a.ar ∧ t.z = a.z ∧ t.n = a.n ∧ t.o = a.o ∧ t.c = a.c) ∧ OtherTargetsKept (x.word .hr) s t

/-- FB = 6 writes the bus to GR[sel] and leaves the other three (R117); a later cycle that selects the same
register puts exactly that value on the bus (R106, R12). -/
def Obligations.FbGrRowAndReadBack : Prop :=
  ∀ (x : FbCtx) (s : State), x.tb ≠ .lit → ∃ t, exec (.fbGr x) s = .next t ∧
    readGr (selIndex x.s s) t = busSource (x.word .gr) s ∧
    (∀ j, j ≠ selIndex x.s s → readGr j t = readGr j s) ∧ OtherTargetsKept (x.word .gr) s t ∧
    ∀ y : TbCtx, y.s = x.s → y.alu = .ld → ∃ u, exec (.tbGr y) t = .next u ∧
      u.ar = busSource (x.word .gr) s

/-- FB = 2 writes the bus to the cell at the ASR from before the cycle; every other cell reads as before; no
instruction with another FB code changes program memory (R113). -/
def Obligations.FbPmRow : Prop :=
  ∀ (x : FbCtx) (s : State), x.tb ≠ .lit → s.memoryWf = true → ∃ t, exec (.fbPm x) s = .next t ∧
    t.pm.read s.asr.toNat = busSource (x.word .pm) s ∧
    (∀ a, a ≠ s.asr.toNat → t.pm.read a = s.pm.read a) ∧ OtherTargetsKept (x.word .pm) s t ∧
    ∀ (i : Instr) (u : State), i.micro.fb ≠ .pm → exec i s = .next u → u.pm = s.pm

/-! ## Sequencer rows (44_sequencer.md), outside literal mode -/

/-- NEXT: uPC + 1 modulo 256, from 127 to 128, with no 7-bit mask (R161). That the increment is never masked is
decision D6 (log 9). -/
def Obligations.SeqNextRow : Prop :=
  ∀ (x : SeqCtx) (s : State), x.tb ≠ .lit → ∃ t, exec (.seqNext x) s = .next t ∧
    SeqResult t ((s.upc.toNat + 1) % 256) s.usp s.halted

/-- K1 dispatches on IR[15:12], K2 on IR[9:8], of the IR from before the cycle, the 8-bit entry copied whole
(R162, R163). The IR positions are decision D2 (log 5). -/
def Obligations.SeqDispatchRows : Prop :=
  ∀ (x : SeqCtx) (s : State), x.tb ≠ .lit →
    (∃ t, exec (.seqK1 x) s = .next t ∧
      SeqResult t (s.k1.read (s.ir.toNat / 4096)).toNat s.usp s.halted) ∧
    (∃ t, exec (.seqK2 x) s = .next t ∧
      SeqResult t (s.k2.read (s.ir.toNat / 256 % 4)).toNat s.usp s.halted)

/-- ZERO goes to 0 (R164), JMP to ADR, always within 0..127 (R166). -/
def Obligations.SeqZeroAndJmpRows : Prop :=
  ∀ (x : SeqCtx) (s : State), x.tb ≠ .lit →
    (∃ t, exec (.seqZero x) s = .next t ∧ SeqResult t 0 s.usp s.halted) ∧
    (∃ t, exec (.seqJmp x) s = .next t ∧ SeqResult t x.adr.toNat s.usp s.halted ∧ t.upc.toNat ≤ 127)

/-- CALL saves the address of the CALL word itself in uSP and goes to ADR (R167); RET goes to uSP and leaves
it (R168). -/
def Obligations.SeqCallAndRetRows : Prop :=
  ∀ (x : SeqCtx) (s : State), x.tb ≠ .lit →
    (∃ t, exec (.seqCall x) s = .next t ∧ SeqResult t x.adr.toNat s.upc s.halted) ∧
    (∃ t, exec (.seqRet x) s = .next t ∧ SeqResult t s.usp.toNat s.usp s.halted)

/-- The eight conditional jumps: ADR if the flag FROM BEFORE THE CYCLE holds, else uPC + 1 (R165, R169 to
R175, R177). The flag view is decision D4, the default `pre` (log 7); the unmasked uPC + 1 is D6 (log 9). -/
def Obligations.SeqConditionalRows : Prop :=
  ∀ (x : SeqCtx) (s : State), x.tb ≠ .lit →
    (∃ t, exec (.seqJnz x) s = .next t ∧ SeqResult t (jumpsTo (!s.z) x.adr s) s.usp s.halted) ∧
    (∃ t, exec (.seqJz x) s = .next t ∧ SeqResult t (jumpsTo s.z x.adr s) s.usp s.halted) ∧
    (∃ t, exec (.seqJn x) s = .next t ∧ SeqResult t (jumpsTo s.n x.adr s) s.usp s.halted) ∧
    (∃ t, exec (.seqJc x) s = .next t ∧ SeqResult t (jumpsTo s.c x.adr s) s.usp s.halted) ∧
    (∃ t, exec (.seqJo x) s = .next t ∧ SeqResult t (jumpsTo s.o x.adr s) s.usp s.halted) ∧
    (∃ t, exec (.seqJl x) s = .next t ∧ SeqResult t (jumpsTo s.l x.adr s) s.usp s.halted) ∧
    (∃ t, exec (.seqJnc x) s = .next t ∧ SeqResult t (jumpsTo (!s.c) x.adr s) s.usp s.halted) ∧
    (∃ t, exec (.seqJno x) s = .next t ∧ SeqResult t (jumpsTo (!s.o) x.adr s) s.usp s.halted)

/-- HALT sets the latch and uPC 0; the rest of the halting cycle executes as in the same word with NEXT, and
the cycle is counted (R176); the next step changes nothing (R83). That the other fields act is decision D8
(log 11), the counter D7 (log 10). With `lc=IMM` LC takes the low byte of the HALT word, whose bit 7 belongs to SEQ (R64). -/
def Obligations.SeqHaltRow : Prop :=
  ∀ (x : SeqCtx) (s : State), x.tb ≠ .lit → ∃ t, exec (.seqHalt x) s = .next t ∧
    SeqResult t 0 s.usp true ∧ t.cycleCount = s.cycleCount + 1 ∧ step t = .next t ∧
    (∃ u, exec (.seqNext x) s = .next u ∧
      t = { u with upc := 0#8, halted := true, lc := t.lc, l := t.l } ∧
      (x.lc ≠ .imm → t.lc = u.lc ∧ t.l = u.l)) ∧
    (x.lc = .imm → t.lc = (encode (.seqHalt x)).extractLsb' 0 8 ∧ (t.l = true ↔ t.lc.toNat = 0))

/-! ## Frames: what every instruction leaves unchanged -/

/-- The frame of the registers, for all 56 rows: a register changes only by its writers (R91), and a literal
word leaves all but AR and HR. -/
def Obligations.RegisterFrame : Prop :=
  ∀ (i : Instr) (s t : State), exec i s = .next t → let m := i.micro
    (m.alu = .nop → t.ar = s.ar) ∧
    (m.alu ≠ .lsl32 → m.alu ≠ .asr32 → m.tb = .lit ∨ m.fb ≠ .hr → t.hr = s.hr) ∧
    (∀ j, m.tb = .lit ∨ m.fb ≠ .gr ∨ j ≠ selIndex m.s s → readGr j t = readGr j s) ∧
    (m.tb = .lit ∨ m.fb ≠ .ir → t.ir = s.ir) ∧
    (m.tb = .lit ∨ m.fb ≠ .asr → t.asr = s.asr) ∧
    (m.tb = .lit ∨ m.fb ≠ .pc ∧ m.p = .hold → t.pc = s.pc) ∧
    (m.tb = .lit ∨ m.lc = .hold → t.lc = s.lc) ∧
    (m.tb = .lit ∨ m.seq ≠ .call → t.usp = s.usp) ∧
    (m.tb = .lit ∨ m.seq ≠ .halt → t.halted = s.halted) ∧
    (m.tb = .lit → t.upc = s.upc)

/-- The frame of the flags and the counter, for all 56 rows: Z and N change only under the codes that name
them, C likewise, O under code 4 alone (R150), L never in literal mode; the counter advances by 1 (R92, D7,
log 10). -/
def Obligations.FlagFrame : Prop :=
  ∀ (i : Instr) (s t : State), exec i s = .next t → let m := i.micro
    (m.alu = .nop ∨ m.alu = .ld ∨ m.alu = .ldn ∨ m.alu = .addq → t.z = s.z ∧ t.n = s.n) ∧
    (m.alu = .nop ∨ m.alu = .ld ∨ m.alu = .ldn ∨ m.alu = .clr ∨ m.alu = .and ∨ m.alu = .or ∨
      m.alu = .addq → t.c = s.c) ∧
    (m.alu ≠ .add → t.o = s.o) ∧ (m.tb = .lit → t.l = s.l) ∧ t.cycleCount = s.cycleCount + 1

/-- The frame of the memories, for all 56 rows and every state: every program-memory cell reads as before but
the one at the old ASR when FB = 2 stores outside literal mode (R45, R113); CS, K1 and K2 are never written
(R41 to R43). -/
def Obligations.MemoryFrame : Prop :=
  ∀ (i : Instr) (s t : State), exec i s = .next t → let m := i.micro
    (∀ a, m.tb = .lit ∨ m.fb ≠ .pm ∨ a ≠ s.asr.toNat → t.pm.read a = s.pm.read a) ∧
    t.cs = s.cs ∧ t.k1 = s.k1 ∧ t.k2 = s.k2

/-! ## Invariants and whole-machine rules -/

/-- Every step from a state that meets the invariant gives a state that meets it: canonical memories, L in
agreement with LC, uSP within the control store. Rests on decision D9 for literal words (log 12). -/
def Obligations.StepKeepsInvariant : Prop :=
  ∀ s t : State, Inv s → step s = .next t → Inv t

/-- A core whose loader met the contract of R213 (points 2 to 5) never faults: every number of steps gives a
state, which meets the contract again. -/
def Obligations.LoaderContractRunsWithoutFault : Prop :=
  ∀ (s : State) (k : Nat), LoaderContract s → ∃ t, Sys2Proof.core.run k s = .next t ∧ LoaderContract t

/-- The literal-mode stall: once uPC points at a word with TB = 7 the core executes that word on every step
forever; only AR, HR, Z, N, O, C change, and the steps are counted (R221). That L is not recomputed is decision
D9 (log 12); the counter is D7 (log 10). -/
def Obligations.LiteralWordStallsForever : Prop :=
  ∀ (s : State) (k : Nat), s.halted = false → s.upc.toNat ≤ 127 → (decodeMicro (fetchWord s)).tb = .lit →
    ∃ t, Sys2Proof.core.run k s = .next t ∧ OnlyAluChanged s t ∧ fetchWord t = fetchWord s ∧
      t.cycleCount = s.cycleCount + k

/-- CALL then RET lands on the CALL word, which is fetched again (R222); a second CALL before the RET
overwrites the saved address with its own (R223). -/
def Obligations.CallThenReturnLandsOnCall : Prop :=
  ∀ s : State, s.halted = false → s.upc.toNat ≤ 127 →
    let m := decodeMicro (fetchWord s)
    let r := decodeMicro (s.cs.read m.adr.toNat)
    m.tb ≠ .lit → m.seq = .call → r.tb ≠ .lit →
    (r.seq = .ret → ∃ t, Sys2Proof.core.run 2 s = .next t ∧ t.upc = s.upc ∧ t.usp = s.upc ∧
      fetchWord t = fetchWord s) ∧
    (r.seq = .call → ∃ t, Sys2Proof.core.run 2 s = .next t ∧ t.usp.toNat = m.adr.toNat)

/-- The stages do not feed one another (R91, R93): two words that differ in the ALU code alone leave the same
state but for AR, HR, Z, N, O and C. That a test sees no flag of its own cycle is decision D4 (log 7). -/
def Obligations.AluCodeReachesOnlyAluResults : Prop :=
  ∀ (i j : Instr) (s t u : State), i.micro = { j.micro with alu := i.micro.alu } →
    exec i s = .next t → exec j s = .next u → installAlu (aluRegs u) t = u

/-- A word that does not test a flag its own ALU code writes behaves alike under both settings of
SEQ_FLAG_VIEW (R160, D4; log 7). -/
def Obligations.FlagViewsAgree : Prop :=
  ∀ (m : Micro) (s : State),
    (m.seq = .jz ∨ m.seq = .jnz ∨ m.seq = .jn →
      m.alu = .nop ∨ m.alu = .ld ∨ m.alu = .ldn ∨ m.alu = .addq) →
    (m.seq = .jc ∨ m.seq = .jnc →
      m.alu = .nop ∨ m.alu = .ld ∨ m.alu = .ldn ∨ m.alu = .clr ∨ m.alu = .and ∨ m.alu = .or ∨
        m.alu = .addq) →
    (m.seq = .jo ∨ m.seq = .jno → m.alu ≠ .add) →
    microCycleWith .pre m s = microCycleWith .post m s

/-- The host's program-memory write is what later reads see, and changes nothing else (R47, D18, log 20);
every action but initialisation leaves CS, K1 and K2, and a halted core halted (R41, R211). -/
def Obligations.HostActions : Prop :=
  (∀ (a : Byte) (v : Word) (s : State), s.memoryWf = true →
    ∃ t, hostAct (.writePm a v) s = .next t ∧ hostReadPm a t = v ∧
      (∀ b, b ≠ a → hostReadPm b t = hostReadPm b s) ∧ { t with pm := s.pm } = s ∧ t.memoryWf = true) ∧
  (∀ (act : HostAction) (s t : State), hostAct act s = .next t →
    (∃ img x, act = .load img x) ∨
      (t.cs = s.cs ∧ t.k1 = s.k1 ∧ t.k2 = s.k2 ∧ (s.halted = true → t.halted = true)))
end

