-- ==== Sys2Proof/Laws/State.lean ====
section
/-! SUPPORT. One lemma per field per update of the state, so that no later proof unfolds a record update. -/

namespace Sys2Proof.Machine

/-! ## setPc -/

@[simp] theorem setPc_pc (v : Byte) (t : State) : (setPc v t).pc = v := rfl
@[simp] theorem setPc_asr (v : Byte) (t : State) : (setPc v t).asr = t.asr := rfl
@[simp] theorem setPc_ar (v : Byte) (t : State) : (setPc v t).ar = t.ar := rfl
@[simp] theorem setPc_hr (v : Byte) (t : State) : (setPc v t).hr = t.hr := rfl
@[simp] theorem setPc_gr0 (v : Byte) (t : State) : (setPc v t).gr0 = t.gr0 := rfl
@[simp] theorem setPc_gr1 (v : Byte) (t : State) : (setPc v t).gr1 = t.gr1 := rfl
@[simp] theorem setPc_gr2 (v : Byte) (t : State) : (setPc v t).gr2 = t.gr2 := rfl
@[simp] theorem setPc_gr3 (v : Byte) (t : State) : (setPc v t).gr3 = t.gr3 := rfl
@[simp] theorem setPc_ir (v : Byte) (t : State) : (setPc v t).ir = t.ir := rfl
@[simp] theorem setPc_upc (v : Byte) (t : State) : (setPc v t).upc = t.upc := rfl
@[simp] theorem setPc_usp (v : Byte) (t : State) : (setPc v t).usp = t.usp := rfl
@[simp] theorem setPc_lc (v : Byte) (t : State) : (setPc v t).lc = t.lc := rfl
@[simp] theorem setPc_z (v : Byte) (t : State) : (setPc v t).z = t.z := rfl
@[simp] theorem setPc_n (v : Byte) (t : State) : (setPc v t).n = t.n := rfl
@[simp] theorem setPc_o (v : Byte) (t : State) : (setPc v t).o = t.o := rfl
@[simp] theorem setPc_c (v : Byte) (t : State) : (setPc v t).c = t.c := rfl
@[simp] theorem setPc_l (v : Byte) (t : State) : (setPc v t).l = t.l := rfl
@[simp] theorem setPc_halted (v : Byte) (t : State) : (setPc v t).halted = t.halted := rfl
@[simp] theorem setPc_cycleCount (v : Byte) (t : State) : (setPc v t).cycleCount = t.cycleCount := rfl
@[simp] theorem setPc_pm (v : Byte) (t : State) : (setPc v t).pm = t.pm := rfl
@[simp] theorem setPc_cs (v : Byte) (t : State) : (setPc v t).cs = t.cs := rfl
@[simp] theorem setPc_k1 (v : Byte) (t : State) : (setPc v t).k1 = t.k1 := rfl
@[simp] theorem setPc_k2 (v : Byte) (t : State) : (setPc v t).k2 = t.k2 := rfl

/-! ## setAsr -/

@[simp] theorem setAsr_pc (v : Byte) (t : State) : (setAsr v t).pc = t.pc := rfl
@[simp] theorem setAsr_asr (v : Byte) (t : State) : (setAsr v t).asr = v := rfl
@[simp] theorem setAsr_ar (v : Byte) (t : State) : (setAsr v t).ar = t.ar := rfl
@[simp] theorem setAsr_hr (v : Byte) (t : State) : (setAsr v t).hr = t.hr := rfl
@[simp] theorem setAsr_gr0 (v : Byte) (t : State) : (setAsr v t).gr0 = t.gr0 := rfl
@[simp] theorem setAsr_gr1 (v : Byte) (t : State) : (setAsr v t).gr1 = t.gr1 := rfl
@[simp] theorem setAsr_gr2 (v : Byte) (t : State) : (setAsr v t).gr2 = t.gr2 := rfl
@[simp] theorem setAsr_gr3 (v : Byte) (t : State) : (setAsr v t).gr3 = t.gr3 := rfl
@[simp] theorem setAsr_ir (v : Byte) (t : State) : (setAsr v t).ir = t.ir := rfl
@[simp] theorem setAsr_upc (v : Byte) (t : State) : (setAsr v t).upc = t.upc := rfl
@[simp] theorem setAsr_usp (v : Byte) (t : State) : (setAsr v t).usp = t.usp := rfl
@[simp] theorem setAsr_lc (v : Byte) (t : State) : (setAsr v t).lc = t.lc := rfl
@[simp] theorem setAsr_z (v : Byte) (t : State) : (setAsr v t).z = t.z := rfl
@[simp] theorem setAsr_n (v : Byte) (t : State) : (setAsr v t).n = t.n := rfl
@[simp] theorem setAsr_o (v : Byte) (t : State) : (setAsr v t).o = t.o := rfl
@[simp] theorem setAsr_c (v : Byte) (t : State) : (setAsr v t).c = t.c := rfl
@[simp] theorem setAsr_l (v : Byte) (t : State) : (setAsr v t).l = t.l := rfl
@[simp] theorem setAsr_halted (v : Byte) (t : State) : (setAsr v t).halted = t.halted := rfl
@[simp] theorem setAsr_cycleCount (v : Byte) (t : State) : (setAsr v t).cycleCount = t.cycleCount := rfl
@[simp] theorem setAsr_pm (v : Byte) (t : State) : (setAsr v t).pm = t.pm := rfl
@[simp] theorem setAsr_cs (v : Byte) (t : State) : (setAsr v t).cs = t.cs := rfl
@[simp] theorem setAsr_k1 (v : Byte) (t : State) : (setAsr v t).k1 = t.k1 := rfl
@[simp] theorem setAsr_k2 (v : Byte) (t : State) : (setAsr v t).k2 = t.k2 := rfl

/-! ## setHr -/

@[simp] theorem setHr_pc (v : Word) (t : State) : (setHr v t).pc = t.pc := rfl
@[simp] theorem setHr_asr (v : Word) (t : State) : (setHr v t).asr = t.asr := rfl
@[simp] theorem setHr_ar (v : Word) (t : State) : (setHr v t).ar = t.ar := rfl
@[simp] theorem setHr_hr (v : Word) (t : State) : (setHr v t).hr = v := rfl
@[simp] theorem setHr_gr0 (v : Word) (t : State) : (setHr v t).gr0 = t.gr0 := rfl
@[simp] theorem setHr_gr1 (v : Word) (t : State) : (setHr v t).gr1 = t.gr1 := rfl
@[simp] theorem setHr_gr2 (v : Word) (t : State) : (setHr v t).gr2 = t.gr2 := rfl
@[simp] theorem setHr_gr3 (v : Word) (t : State) : (setHr v t).gr3 = t.gr3 := rfl
@[simp] theorem setHr_ir (v : Word) (t : State) : (setHr v t).ir = t.ir := rfl
@[simp] theorem setHr_upc (v : Word) (t : State) : (setHr v t).upc = t.upc := rfl
@[simp] theorem setHr_usp (v : Word) (t : State) : (setHr v t).usp = t.usp := rfl
@[simp] theorem setHr_lc (v : Word) (t : State) : (setHr v t).lc = t.lc := rfl
@[simp] theorem setHr_z (v : Word) (t : State) : (setHr v t).z = t.z := rfl
@[simp] theorem setHr_n (v : Word) (t : State) : (setHr v t).n = t.n := rfl
@[simp] theorem setHr_o (v : Word) (t : State) : (setHr v t).o = t.o := rfl
@[simp] theorem setHr_c (v : Word) (t : State) : (setHr v t).c = t.c := rfl
@[simp] theorem setHr_l (v : Word) (t : State) : (setHr v t).l = t.l := rfl
@[simp] theorem setHr_halted (v : Word) (t : State) : (setHr v t).halted = t.halted := rfl
@[simp] theorem setHr_cycleCount (v : Word) (t : State) : (setHr v t).cycleCount = t.cycleCount := rfl
@[simp] theorem setHr_pm (v : Word) (t : State) : (setHr v t).pm = t.pm := rfl
@[simp] theorem setHr_cs (v : Word) (t : State) : (setHr v t).cs = t.cs := rfl
@[simp] theorem setHr_k1 (v : Word) (t : State) : (setHr v t).k1 = t.k1 := rfl
@[simp] theorem setHr_k2 (v : Word) (t : State) : (setHr v t).k2 = t.k2 := rfl

/-! ## setIr -/

@[simp] theorem setIr_pc (v : Word) (t : State) : (setIr v t).pc = t.pc := rfl
@[simp] theorem setIr_asr (v : Word) (t : State) : (setIr v t).asr = t.asr := rfl
@[simp] theorem setIr_ar (v : Word) (t : State) : (setIr v t).ar = t.ar := rfl
@[simp] theorem setIr_hr (v : Word) (t : State) : (setIr v t).hr = t.hr := rfl
@[simp] theorem setIr_gr0 (v : Word) (t : State) : (setIr v t).gr0 = t.gr0 := rfl
@[simp] theorem setIr_gr1 (v : Word) (t : State) : (setIr v t).gr1 = t.gr1 := rfl
@[simp] theorem setIr_gr2 (v : Word) (t : State) : (setIr v t).gr2 = t.gr2 := rfl
@[simp] theorem setIr_gr3 (v : Word) (t : State) : (setIr v t).gr3 = t.gr3 := rfl
@[simp] theorem setIr_ir (v : Word) (t : State) : (setIr v t).ir = v := rfl
@[simp] theorem setIr_upc (v : Word) (t : State) : (setIr v t).upc = t.upc := rfl
@[simp] theorem setIr_usp (v : Word) (t : State) : (setIr v t).usp = t.usp := rfl
@[simp] theorem setIr_lc (v : Word) (t : State) : (setIr v t).lc = t.lc := rfl
@[simp] theorem setIr_z (v : Word) (t : State) : (setIr v t).z = t.z := rfl
@[simp] theorem setIr_n (v : Word) (t : State) : (setIr v t).n = t.n := rfl
@[simp] theorem setIr_o (v : Word) (t : State) : (setIr v t).o = t.o := rfl
@[simp] theorem setIr_c (v : Word) (t : State) : (setIr v t).c = t.c := rfl
@[simp] theorem setIr_l (v : Word) (t : State) : (setIr v t).l = t.l := rfl
@[simp] theorem setIr_halted (v : Word) (t : State) : (setIr v t).halted = t.halted := rfl
@[simp] theorem setIr_cycleCount (v : Word) (t : State) : (setIr v t).cycleCount = t.cycleCount := rfl
@[simp] theorem setIr_pm (v : Word) (t : State) : (setIr v t).pm = t.pm := rfl
@[simp] theorem setIr_cs (v : Word) (t : State) : (setIr v t).cs = t.cs := rfl
@[simp] theorem setIr_k1 (v : Word) (t : State) : (setIr v t).k1 = t.k1 := rfl
@[simp] theorem setIr_k2 (v : Word) (t : State) : (setIr v t).k2 = t.k2 := rfl

/-! ## setUpc -/

@[simp] theorem setUpc_pc (v : Byte) (t : State) : (setUpc v t).pc = t.pc := rfl
@[simp] theorem setUpc_asr (v : Byte) (t : State) : (setUpc v t).asr = t.asr := rfl
@[simp] theorem setUpc_ar (v : Byte) (t : State) : (setUpc v t).ar = t.ar := rfl
@[simp] theorem setUpc_hr (v : Byte) (t : State) : (setUpc v t).hr = t.hr := rfl
@[simp] theorem setUpc_gr0 (v : Byte) (t : State) : (setUpc v t).gr0 = t.gr0 := rfl
@[simp] theorem setUpc_gr1 (v : Byte) (t : State) : (setUpc v t).gr1 = t.gr1 := rfl
@[simp] theorem setUpc_gr2 (v : Byte) (t : State) : (setUpc v t).gr2 = t.gr2 := rfl
@[simp] theorem setUpc_gr3 (v : Byte) (t : State) : (setUpc v t).gr3 = t.gr3 := rfl
@[simp] theorem setUpc_ir (v : Byte) (t : State) : (setUpc v t).ir = t.ir := rfl
@[simp] theorem setUpc_upc (v : Byte) (t : State) : (setUpc v t).upc = v := rfl
@[simp] theorem setUpc_usp (v : Byte) (t : State) : (setUpc v t).usp = t.usp := rfl
@[simp] theorem setUpc_lc (v : Byte) (t : State) : (setUpc v t).lc = t.lc := rfl
@[simp] theorem setUpc_z (v : Byte) (t : State) : (setUpc v t).z = t.z := rfl
@[simp] theorem setUpc_n (v : Byte) (t : State) : (setUpc v t).n = t.n := rfl
@[simp] theorem setUpc_o (v : Byte) (t : State) : (setUpc v t).o = t.o := rfl
@[simp] theorem setUpc_c (v : Byte) (t : State) : (setUpc v t).c = t.c := rfl
@[simp] theorem setUpc_l (v : Byte) (t : State) : (setUpc v t).l = t.l := rfl
@[simp] theorem setUpc_halted (v : Byte) (t : State) : (setUpc v t).halted = t.halted := rfl
@[simp] theorem setUpc_cycleCount (v : Byte) (t : State) : (setUpc v t).cycleCount = t.cycleCount := rfl
@[simp] theorem setUpc_pm (v : Byte) (t : State) : (setUpc v t).pm = t.pm := rfl
@[simp] theorem setUpc_cs (v : Byte) (t : State) : (setUpc v t).cs = t.cs := rfl
@[simp] theorem setUpc_k1 (v : Byte) (t : State) : (setUpc v t).k1 = t.k1 := rfl
@[simp] theorem setUpc_k2 (v : Byte) (t : State) : (setUpc v t).k2 = t.k2 := rfl

/-! ## setUsp -/

@[simp] theorem setUsp_pc (v : Byte) (t : State) : (setUsp v t).pc = t.pc := rfl
@[simp] theorem setUsp_asr (v : Byte) (t : State) : (setUsp v t).asr = t.asr := rfl
@[simp] theorem setUsp_ar (v : Byte) (t : State) : (setUsp v t).ar = t.ar := rfl
@[simp] theorem setUsp_hr (v : Byte) (t : State) : (setUsp v t).hr = t.hr := rfl
@[simp] theorem setUsp_gr0 (v : Byte) (t : State) : (setUsp v t).gr0 = t.gr0 := rfl
@[simp] theorem setUsp_gr1 (v : Byte) (t : State) : (setUsp v t).gr1 = t.gr1 := rfl
@[simp] theorem setUsp_gr2 (v : Byte) (t : State) : (setUsp v t).gr2 = t.gr2 := rfl
@[simp] theorem setUsp_gr3 (v : Byte) (t : State) : (setUsp v t).gr3 = t.gr3 := rfl
@[simp] theorem setUsp_ir (v : Byte) (t : State) : (setUsp v t).ir = t.ir := rfl
@[simp] theorem setUsp_upc (v : Byte) (t : State) : (setUsp v t).upc = t.upc := rfl
@[simp] theorem setUsp_usp (v : Byte) (t : State) : (setUsp v t).usp = v := rfl
@[simp] theorem setUsp_lc (v : Byte) (t : State) : (setUsp v t).lc = t.lc := rfl
@[simp] theorem setUsp_z (v : Byte) (t : State) : (setUsp v t).z = t.z := rfl
@[simp] theorem setUsp_n (v : Byte) (t : State) : (setUsp v t).n = t.n := rfl
@[simp] theorem setUsp_o (v : Byte) (t : State) : (setUsp v t).o = t.o := rfl
@[simp] theorem setUsp_c (v : Byte) (t : State) : (setUsp v t).c = t.c := rfl
@[simp] theorem setUsp_l (v : Byte) (t : State) : (setUsp v t).l = t.l := rfl
@[simp] theorem setUsp_halted (v : Byte) (t : State) : (setUsp v t).halted = t.halted := rfl
@[simp] theorem setUsp_cycleCount (v : Byte) (t : State) : (setUsp v t).cycleCount = t.cycleCount := rfl
@[simp] theorem setUsp_pm (v : Byte) (t : State) : (setUsp v t).pm = t.pm := rfl
@[simp] theorem setUsp_cs (v : Byte) (t : State) : (setUsp v t).cs = t.cs := rfl
@[simp] theorem setUsp_k1 (v : Byte) (t : State) : (setUsp v t).k1 = t.k1 := rfl
@[simp] theorem setUsp_k2 (v : Byte) (t : State) : (setUsp v t).k2 = t.k2 := rfl

/-! ## setLc -/

@[simp] theorem setLc_pc (v : Byte) (t : State) : (setLc v t).pc = t.pc := rfl
@[simp] theorem setLc_asr (v : Byte) (t : State) : (setLc v t).asr = t.asr := rfl
@[simp] theorem setLc_ar (v : Byte) (t : State) : (setLc v t).ar = t.ar := rfl
@[simp] theorem setLc_hr (v : Byte) (t : State) : (setLc v t).hr = t.hr := rfl
@[simp] theorem setLc_gr0 (v : Byte) (t : State) : (setLc v t).gr0 = t.gr0 := rfl
@[simp] theorem setLc_gr1 (v : Byte) (t : State) : (setLc v t).gr1 = t.gr1 := rfl
@[simp] theorem setLc_gr2 (v : Byte) (t : State) : (setLc v t).gr2 = t.gr2 := rfl
@[simp] theorem setLc_gr3 (v : Byte) (t : State) : (setLc v t).gr3 = t.gr3 := rfl
@[simp] theorem setLc_ir (v : Byte) (t : State) : (setLc v t).ir = t.ir := rfl
@[simp] theorem setLc_upc (v : Byte) (t : State) : (setLc v t).upc = t.upc := rfl
@[simp] theorem setLc_usp (v : Byte) (t : State) : (setLc v t).usp = t.usp := rfl
@[simp] theorem setLc_lc (v : Byte) (t : State) : (setLc v t).lc = v := rfl
@[simp] theorem setLc_z (v : Byte) (t : State) : (setLc v t).z = t.z := rfl
@[simp] theorem setLc_n (v : Byte) (t : State) : (setLc v t).n = t.n := rfl
@[simp] theorem setLc_o (v : Byte) (t : State) : (setLc v t).o = t.o := rfl
@[simp] theorem setLc_c (v : Byte) (t : State) : (setLc v t).c = t.c := rfl
@[simp] theorem setLc_l (v : Byte) (t : State) : (setLc v t).l = t.l := rfl
@[simp] theorem setLc_halted (v : Byte) (t : State) : (setLc v t).halted = t.halted := rfl
@[simp] theorem setLc_cycleCount (v : Byte) (t : State) : (setLc v t).cycleCount = t.cycleCount := rfl
@[simp] theorem setLc_pm (v : Byte) (t : State) : (setLc v t).pm = t.pm := rfl
@[simp] theorem setLc_cs (v : Byte) (t : State) : (setLc v t).cs = t.cs := rfl
@[simp] theorem setLc_k1 (v : Byte) (t : State) : (setLc v t).k1 = t.k1 := rfl
@[simp] theorem setLc_k2 (v : Byte) (t : State) : (setLc v t).k2 = t.k2 := rfl

/-! ## setL -/

@[simp] theorem setL_pc (v : Bool) (t : State) : (setL v t).pc = t.pc := rfl
@[simp] theorem setL_asr (v : Bool) (t : State) : (setL v t).asr = t.asr := rfl
@[simp] theorem setL_ar (v : Bool) (t : State) : (setL v t).ar = t.ar := rfl
@[simp] theorem setL_hr (v : Bool) (t : State) : (setL v t).hr = t.hr := rfl
@[simp] theorem setL_gr0 (v : Bool) (t : State) : (setL v t).gr0 = t.gr0 := rfl
@[simp] theorem setL_gr1 (v : Bool) (t : State) : (setL v t).gr1 = t.gr1 := rfl
@[simp] theorem setL_gr2 (v : Bool) (t : State) : (setL v t).gr2 = t.gr2 := rfl
@[simp] theorem setL_gr3 (v : Bool) (t : State) : (setL v t).gr3 = t.gr3 := rfl
@[simp] theorem setL_ir (v : Bool) (t : State) : (setL v t).ir = t.ir := rfl
@[simp] theorem setL_upc (v : Bool) (t : State) : (setL v t).upc = t.upc := rfl
@[simp] theorem setL_usp (v : Bool) (t : State) : (setL v t).usp = t.usp := rfl
@[simp] theorem setL_lc (v : Bool) (t : State) : (setL v t).lc = t.lc := rfl
@[simp] theorem setL_z (v : Bool) (t : State) : (setL v t).z = t.z := rfl
@[simp] theorem setL_n (v : Bool) (t : State) : (setL v t).n = t.n := rfl
@[simp] theorem setL_o (v : Bool) (t : State) : (setL v t).o = t.o := rfl
@[simp] theorem setL_c (v : Bool) (t : State) : (setL v t).c = t.c := rfl
@[simp] theorem setL_l (v : Bool) (t : State) : (setL v t).l = v := rfl
@[simp] theorem setL_halted (v : Bool) (t : State) : (setL v t).halted = t.halted := rfl
@[simp] theorem setL_cycleCount (v : Bool) (t : State) : (setL v t).cycleCount = t.cycleCount := rfl
@[simp] theorem setL_pm (v : Bool) (t : State) : (setL v t).pm = t.pm := rfl
@[simp] theorem setL_cs (v : Bool) (t : State) : (setL v t).cs = t.cs := rfl
@[simp] theorem setL_k1 (v : Bool) (t : State) : (setL v t).k1 = t.k1 := rfl
@[simp] theorem setL_k2 (v : Bool) (t : State) : (setL v t).k2 = t.k2 := rfl

/-! ## setHalted -/

@[simp] theorem setHalted_pc (v : Bool) (t : State) : (setHalted v t).pc = t.pc := rfl
@[simp] theorem setHalted_asr (v : Bool) (t : State) : (setHalted v t).asr = t.asr := rfl
@[simp] theorem setHalted_ar (v : Bool) (t : State) : (setHalted v t).ar = t.ar := rfl
@[simp] theorem setHalted_hr (v : Bool) (t : State) : (setHalted v t).hr = t.hr := rfl
@[simp] theorem setHalted_gr0 (v : Bool) (t : State) : (setHalted v t).gr0 = t.gr0 := rfl
@[simp] theorem setHalted_gr1 (v : Bool) (t : State) : (setHalted v t).gr1 = t.gr1 := rfl
@[simp] theorem setHalted_gr2 (v : Bool) (t : State) : (setHalted v t).gr2 = t.gr2 := rfl
@[simp] theorem setHalted_gr3 (v : Bool) (t : State) : (setHalted v t).gr3 = t.gr3 := rfl
@[simp] theorem setHalted_ir (v : Bool) (t : State) : (setHalted v t).ir = t.ir := rfl
@[simp] theorem setHalted_upc (v : Bool) (t : State) : (setHalted v t).upc = t.upc := rfl
@[simp] theorem setHalted_usp (v : Bool) (t : State) : (setHalted v t).usp = t.usp := rfl
@[simp] theorem setHalted_lc (v : Bool) (t : State) : (setHalted v t).lc = t.lc := rfl
@[simp] theorem setHalted_z (v : Bool) (t : State) : (setHalted v t).z = t.z := rfl
@[simp] theorem setHalted_n (v : Bool) (t : State) : (setHalted v t).n = t.n := rfl
@[simp] theorem setHalted_o (v : Bool) (t : State) : (setHalted v t).o = t.o := rfl
@[simp] theorem setHalted_c (v : Bool) (t : State) : (setHalted v t).c = t.c := rfl
@[simp] theorem setHalted_l (v : Bool) (t : State) : (setHalted v t).l = t.l := rfl
@[simp] theorem setHalted_halted (v : Bool) (t : State) : (setHalted v t).halted = v := rfl
@[simp] theorem setHalted_cycleCount (v : Bool) (t : State) : (setHalted v t).cycleCount = t.cycleCount := rfl
@[simp] theorem setHalted_pm (v : Bool) (t : State) : (setHalted v t).pm = t.pm := rfl
@[simp] theorem setHalted_cs (v : Bool) (t : State) : (setHalted v t).cs = t.cs := rfl
@[simp] theorem setHalted_k1 (v : Bool) (t : State) : (setHalted v t).k1 = t.k1 := rfl
@[simp] theorem setHalted_k2 (v : Bool) (t : State) : (setHalted v t).k2 = t.k2 := rfl

/-! ## setCycleCount -/

@[simp] theorem setCycleCount_pc (v : Nat) (t : State) : (setCycleCount v t).pc = t.pc := rfl
@[simp] theorem setCycleCount_asr (v : Nat) (t : State) : (setCycleCount v t).asr = t.asr := rfl
@[simp] theorem setCycleCount_ar (v : Nat) (t : State) : (setCycleCount v t).ar = t.ar := rfl
@[simp] theorem setCycleCount_hr (v : Nat) (t : State) : (setCycleCount v t).hr = t.hr := rfl
@[simp] theorem setCycleCount_gr0 (v : Nat) (t : State) : (setCycleCount v t).gr0 = t.gr0 := rfl
@[simp] theorem setCycleCount_gr1 (v : Nat) (t : State) : (setCycleCount v t).gr1 = t.gr1 := rfl
@[simp] theorem setCycleCount_gr2 (v : Nat) (t : State) : (setCycleCount v t).gr2 = t.gr2 := rfl
@[simp] theorem setCycleCount_gr3 (v : Nat) (t : State) : (setCycleCount v t).gr3 = t.gr3 := rfl
@[simp] theorem setCycleCount_ir (v : Nat) (t : State) : (setCycleCount v t).ir = t.ir := rfl
@[simp] theorem setCycleCount_upc (v : Nat) (t : State) : (setCycleCount v t).upc = t.upc := rfl
@[simp] theorem setCycleCount_usp (v : Nat) (t : State) : (setCycleCount v t).usp = t.usp := rfl
@[simp] theorem setCycleCount_lc (v : Nat) (t : State) : (setCycleCount v t).lc = t.lc := rfl
@[simp] theorem setCycleCount_z (v : Nat) (t : State) : (setCycleCount v t).z = t.z := rfl
@[simp] theorem setCycleCount_n (v : Nat) (t : State) : (setCycleCount v t).n = t.n := rfl
@[simp] theorem setCycleCount_o (v : Nat) (t : State) : (setCycleCount v t).o = t.o := rfl
@[simp] theorem setCycleCount_c (v : Nat) (t : State) : (setCycleCount v t).c = t.c := rfl
@[simp] theorem setCycleCount_l (v : Nat) (t : State) : (setCycleCount v t).l = t.l := rfl
@[simp] theorem setCycleCount_halted (v : Nat) (t : State) : (setCycleCount v t).halted = t.halted := rfl
@[simp] theorem setCycleCount_cycleCount (v : Nat) (t : State) : (setCycleCount v t).cycleCount = v := rfl
@[simp] theorem setCycleCount_pm (v : Nat) (t : State) : (setCycleCount v t).pm = t.pm := rfl
@[simp] theorem setCycleCount_cs (v : Nat) (t : State) : (setCycleCount v t).cs = t.cs := rfl
@[simp] theorem setCycleCount_k1 (v : Nat) (t : State) : (setCycleCount v t).k1 = t.k1 := rfl
@[simp] theorem setCycleCount_k2 (v : Nat) (t : State) : (setCycleCount v t).k2 = t.k2 := rfl

/-! ## setPmCell -/

@[simp] theorem setPmCell_pc (a : Byte) (v : Word) (t : State) : (setPmCell a v t).pc = t.pc := rfl
@[simp] theorem setPmCell_asr (a : Byte) (v : Word) (t : State) : (setPmCell a v t).asr = t.asr := rfl
@[simp] theorem setPmCell_ar (a : Byte) (v : Word) (t : State) : (setPmCell a v t).ar = t.ar := rfl
@[simp] theorem setPmCell_hr (a : Byte) (v : Word) (t : State) : (setPmCell a v t).hr = t.hr := rfl
@[simp] theorem setPmCell_gr0 (a : Byte) (v : Word) (t : State) : (setPmCell a v t).gr0 = t.gr0 := rfl
@[simp] theorem setPmCell_gr1 (a : Byte) (v : Word) (t : State) : (setPmCell a v t).gr1 = t.gr1 := rfl
@[simp] theorem setPmCell_gr2 (a : Byte) (v : Word) (t : State) : (setPmCell a v t).gr2 = t.gr2 := rfl
@[simp] theorem setPmCell_gr3 (a : Byte) (v : Word) (t : State) : (setPmCell a v t).gr3 = t.gr3 := rfl
@[simp] theorem setPmCell_ir (a : Byte) (v : Word) (t : State) : (setPmCell a v t).ir = t.ir := rfl
@[simp] theorem setPmCell_upc (a : Byte) (v : Word) (t : State) : (setPmCell a v t).upc = t.upc := rfl
@[simp] theorem setPmCell_usp (a : Byte) (v : Word) (t : State) : (setPmCell a v t).usp = t.usp := rfl
@[simp] theorem setPmCell_lc (a : Byte) (v : Word) (t : State) : (setPmCell a v t).lc = t.lc := rfl
@[simp] theorem setPmCell_z (a : Byte) (v : Word) (t : State) : (setPmCell a v t).z = t.z := rfl
@[simp] theorem setPmCell_n (a : Byte) (v : Word) (t : State) : (setPmCell a v t).n = t.n := rfl
@[simp] theorem setPmCell_o (a : Byte) (v : Word) (t : State) : (setPmCell a v t).o = t.o := rfl
@[simp] theorem setPmCell_c (a : Byte) (v : Word) (t : State) : (setPmCell a v t).c = t.c := rfl
@[simp] theorem setPmCell_l (a : Byte) (v : Word) (t : State) : (setPmCell a v t).l = t.l := rfl
@[simp] theorem setPmCell_halted (a : Byte) (v : Word) (t : State) : (setPmCell a v t).halted = t.halted := rfl
@[simp] theorem setPmCell_cycleCount (a : Byte) (v : Word) (t : State) : (setPmCell a v t).cycleCount = t.cycleCount := rfl
@[simp] theorem setPmCell_pm (a : Byte) (v : Word) (t : State) : (setPmCell a v t).pm = t.pm.write a.toNat v := rfl
@[simp] theorem setPmCell_cs (a : Byte) (v : Word) (t : State) : (setPmCell a v t).cs = t.cs := rfl
@[simp] theorem setPmCell_k1 (a : Byte) (v : Word) (t : State) : (setPmCell a v t).k1 = t.k1 := rfl
@[simp] theorem setPmCell_k2 (a : Byte) (v : Word) (t : State) : (setPmCell a v t).k2 = t.k2 := rfl

/-! ## setCsCell -/

@[simp] theorem setCsCell_pc (a : Byte) (v : Word32) (t : State) : (setCsCell a v t).pc = t.pc := rfl
@[simp] theorem setCsCell_asr (a : Byte) (v : Word32) (t : State) : (setCsCell a v t).asr = t.asr := rfl
@[simp] theorem setCsCell_ar (a : Byte) (v : Word32) (t : State) : (setCsCell a v t).ar = t.ar := rfl
@[simp] theorem setCsCell_hr (a : Byte) (v : Word32) (t : State) : (setCsCell a v t).hr = t.hr := rfl
@[simp] theorem setCsCell_gr0 (a : Byte) (v : Word32) (t : State) : (setCsCell a v t).gr0 = t.gr0 := rfl
@[simp] theorem setCsCell_gr1 (a : Byte) (v : Word32) (t : State) : (setCsCell a v t).gr1 = t.gr1 := rfl
@[simp] theorem setCsCell_gr2 (a : Byte) (v : Word32) (t : State) : (setCsCell a v t).gr2 = t.gr2 := rfl
@[simp] theorem setCsCell_gr3 (a : Byte) (v : Word32) (t : State) : (setCsCell a v t).gr3 = t.gr3 := rfl
@[simp] theorem setCsCell_ir (a : Byte) (v : Word32) (t : State) : (setCsCell a v t).ir = t.ir := rfl
@[simp] theorem setCsCell_upc (a : Byte) (v : Word32) (t : State) : (setCsCell a v t).upc = t.upc := rfl
@[simp] theorem setCsCell_usp (a : Byte) (v : Word32) (t : State) : (setCsCell a v t).usp = t.usp := rfl
@[simp] theorem setCsCell_lc (a : Byte) (v : Word32) (t : State) : (setCsCell a v t).lc = t.lc := rfl
@[simp] theorem setCsCell_z (a : Byte) (v : Word32) (t : State) : (setCsCell a v t).z = t.z := rfl
@[simp] theorem setCsCell_n (a : Byte) (v : Word32) (t : State) : (setCsCell a v t).n = t.n := rfl
@[simp] theorem setCsCell_o (a : Byte) (v : Word32) (t : State) : (setCsCell a v t).o = t.o := rfl
@[simp] theorem setCsCell_c (a : Byte) (v : Word32) (t : State) : (setCsCell a v t).c = t.c := rfl
@[simp] theorem setCsCell_l (a : Byte) (v : Word32) (t : State) : (setCsCell a v t).l = t.l := rfl
@[simp] theorem setCsCell_halted (a : Byte) (v : Word32) (t : State) : (setCsCell a v t).halted = t.halted := rfl
@[simp] theorem setCsCell_cycleCount (a : Byte) (v : Word32) (t : State) : (setCsCell a v t).cycleCount = t.cycleCount := rfl
@[simp] theorem setCsCell_pm (a : Byte) (v : Word32) (t : State) : (setCsCell a v t).pm = t.pm := rfl
@[simp] theorem setCsCell_cs (a : Byte) (v : Word32) (t : State) : (setCsCell a v t).cs = t.cs.write a.toNat v := rfl
@[simp] theorem setCsCell_k1 (a : Byte) (v : Word32) (t : State) : (setCsCell a v t).k1 = t.k1 := rfl
@[simp] theorem setCsCell_k2 (a : Byte) (v : Word32) (t : State) : (setCsCell a v t).k2 = t.k2 := rfl

/-! ## installAlu -/

@[simp] theorem installAlu_pc (a : AluRegs) (t : State) : (installAlu a t).pc = t.pc := rfl
@[simp] theorem installAlu_asr (a : AluRegs) (t : State) : (installAlu a t).asr = t.asr := rfl
@[simp] theorem installAlu_ar (a : AluRegs) (t : State) : (installAlu a t).ar = a.ar := rfl
@[simp] theorem installAlu_hr (a : AluRegs) (t : State) : (installAlu a t).hr = a.hr := rfl
@[simp] theorem installAlu_gr0 (a : AluRegs) (t : State) : (installAlu a t).gr0 = t.gr0 := rfl
@[simp] theorem installAlu_gr1 (a : AluRegs) (t : State) : (installAlu a t).gr1 = t.gr1 := rfl
@[simp] theorem installAlu_gr2 (a : AluRegs) (t : State) : (installAlu a t).gr2 = t.gr2 := rfl
@[simp] theorem installAlu_gr3 (a : AluRegs) (t : State) : (installAlu a t).gr3 = t.gr3 := rfl
@[simp] theorem installAlu_ir (a : AluRegs) (t : State) : (installAlu a t).ir = t.ir := rfl
@[simp] theorem installAlu_upc (a : AluRegs) (t : State) : (installAlu a t).upc = t.upc := rfl
@[simp] theorem installAlu_usp (a : AluRegs) (t : State) : (installAlu a t).usp = t.usp := rfl
@[simp] theorem installAlu_lc (a : AluRegs) (t : State) : (installAlu a t).lc = t.lc := rfl
@[simp] theorem installAlu_z (a : AluRegs) (t : State) : (installAlu a t).z = a.z := rfl
@[simp] theorem installAlu_n (a : AluRegs) (t : State) : (installAlu a t).n = a.n := rfl
@[simp] theorem installAlu_o (a : AluRegs) (t : State) : (installAlu a t).o = a.o := rfl
@[simp] theorem installAlu_c (a : AluRegs) (t : State) : (installAlu a t).c = a.c := rfl
@[simp] theorem installAlu_l (a : AluRegs) (t : State) : (installAlu a t).l = t.l := rfl
@[simp] theorem installAlu_halted (a : AluRegs) (t : State) : (installAlu a t).halted = t.halted := rfl
@[simp] theorem installAlu_cycleCount (a : AluRegs) (t : State) : (installAlu a t).cycleCount = t.cycleCount := rfl
@[simp] theorem installAlu_pm (a : AluRegs) (t : State) : (installAlu a t).pm = t.pm := rfl
@[simp] theorem installAlu_cs (a : AluRegs) (t : State) : (installAlu a t).cs = t.cs := rfl
@[simp] theorem installAlu_k1 (a : AluRegs) (t : State) : (installAlu a t).k1 = t.k1 := rfl
@[simp] theorem installAlu_k2 (a : AluRegs) (t : State) : (installAlu a t).k2 = t.k2 := rfl

/-! ## tick -/

@[simp] theorem tick_pc (t : State) : (tick t).pc = t.pc := rfl
@[simp] theorem tick_asr (t : State) : (tick t).asr = t.asr := rfl
@[simp] theorem tick_ar (t : State) : (tick t).ar = t.ar := rfl
@[simp] theorem tick_hr (t : State) : (tick t).hr = t.hr := rfl
@[simp] theorem tick_gr0 (t : State) : (tick t).gr0 = t.gr0 := rfl
@[simp] theorem tick_gr1 (t : State) : (tick t).gr1 = t.gr1 := rfl
@[simp] theorem tick_gr2 (t : State) : (tick t).gr2 = t.gr2 := rfl
@[simp] theorem tick_gr3 (t : State) : (tick t).gr3 = t.gr3 := rfl
@[simp] theorem tick_ir (t : State) : (tick t).ir = t.ir := rfl
@[simp] theorem tick_upc (t : State) : (tick t).upc = t.upc := rfl
@[simp] theorem tick_usp (t : State) : (tick t).usp = t.usp := rfl
@[simp] theorem tick_lc (t : State) : (tick t).lc = t.lc := rfl
@[simp] theorem tick_z (t : State) : (tick t).z = t.z := rfl
@[simp] theorem tick_n (t : State) : (tick t).n = t.n := rfl
@[simp] theorem tick_o (t : State) : (tick t).o = t.o := rfl
@[simp] theorem tick_c (t : State) : (tick t).c = t.c := rfl
@[simp] theorem tick_l (t : State) : (tick t).l = t.l := rfl
@[simp] theorem tick_halted (t : State) : (tick t).halted = t.halted := rfl
@[simp] theorem tick_cycleCount (t : State) : (tick t).cycleCount = t.cycleCount + 1 := rfl
@[simp] theorem tick_pm (t : State) : (tick t).pm = t.pm := rfl
@[simp] theorem tick_cs (t : State) : (tick t).cs = t.cs := rfl
@[simp] theorem tick_k1 (t : State) : (tick t).k1 = t.k1 := rfl
@[simp] theorem tick_k2 (t : State) : (tick t).k2 = t.k2 := rfl

/-! ## setGr -/

@[simp] theorem setGr_pc (i : BitVec 2) (v : Word) (t : State) : (setGr i v t).pc = t.pc := by
  unfold setGr; split <;> rfl
@[simp] theorem setGr_asr (i : BitVec 2) (v : Word) (t : State) : (setGr i v t).asr = t.asr := by
  unfold setGr; split <;> rfl
@[simp] theorem setGr_ar (i : BitVec 2) (v : Word) (t : State) : (setGr i v t).ar = t.ar := by
  unfold setGr; split <;> rfl
@[simp] theorem setGr_hr (i : BitVec 2) (v : Word) (t : State) : (setGr i v t).hr = t.hr := by
  unfold setGr; split <;> rfl
@[simp] theorem setGr_gr0 (i : BitVec 2) (v : Word) (t : State) :
    (setGr i v t).gr0 = if i = 0#2 then v else t.gr0 := by
  unfold setGr; split <;> rfl
@[simp] theorem setGr_gr1 (i : BitVec 2) (v : Word) (t : State) :
    (setGr i v t).gr1 = if i = 1#2 then v else t.gr1 := by
  unfold setGr; split <;> rfl
@[simp] theorem setGr_gr2 (i : BitVec 2) (v : Word) (t : State) :
    (setGr i v t).gr2 = if i = 2#2 then v else t.gr2 := by
  unfold setGr; split <;> rfl
@[simp] theorem setGr_gr3 (i : BitVec 2) (v : Word) (t : State) :
    (setGr i v t).gr3 = if i = 3#2 then v else t.gr3 := by
  unfold setGr; split <;> rfl
@[simp] theorem setGr_ir (i : BitVec 2) (v : Word) (t : State) : (setGr i v t).ir = t.ir := by
  unfold setGr; split <;> rfl
@[simp] theorem setGr_upc (i : BitVec 2) (v : Word) (t : State) : (setGr i v t).upc = t.upc := by
  unfold setGr; split <;> rfl
@[simp] theorem setGr_usp (i : BitVec 2) (v : Word) (t : State) : (setGr i v t).usp = t.usp := by
  unfold setGr; split <;> rfl
@[simp] theorem setGr_lc (i : BitVec 2) (v : Word) (t : State) : (setGr i v t).lc = t.lc := by
  unfold setGr; split <;> rfl
@[simp] theorem setGr_z (i : BitVec 2) (v : Word) (t : State) : (setGr i v t).z = t.z := by
  unfold setGr; split <;> rfl
@[simp] theorem setGr_n (i : BitVec 2) (v : Word) (t : State) : (setGr i v t).n = t.n := by
  unfold setGr; split <;> rfl
@[simp] theorem setGr_o (i : BitVec 2) (v : Word) (t : State) : (setGr i v t).o = t.o := by
  unfold setGr; split <;> rfl
@[simp] theorem setGr_c (i : BitVec 2) (v : Word) (t : State) : (setGr i v t).c = t.c := by
  unfold setGr; split <;> rfl
@[simp] theorem setGr_l (i : BitVec 2) (v : Word) (t : State) : (setGr i v t).l = t.l := by
  unfold setGr; split <;> rfl
@[simp] theorem setGr_halted (i : BitVec 2) (v : Word) (t : State) : (setGr i v t).halted = t.halted := by
  unfold setGr; split <;> rfl
@[simp] theorem setGr_cycleCount (i : BitVec 2) (v : Word) (t : State) : (setGr i v t).cycleCount = t.cycleCount := by
  unfold setGr; split <;> rfl
@[simp] theorem setGr_pm (i : BitVec 2) (v : Word) (t : State) : (setGr i v t).pm = t.pm := by
  unfold setGr; split <;> rfl
@[simp] theorem setGr_cs (i : BitVec 2) (v : Word) (t : State) : (setGr i v t).cs = t.cs := by
  unfold setGr; split <;> rfl
@[simp] theorem setGr_k1 (i : BitVec 2) (v : Word) (t : State) : (setGr i v t).k1 = t.k1 := by
  unfold setGr; split <;> rfl
@[simp] theorem setGr_k2 (i : BitVec 2) (v : Word) (t : State) : (setGr i v t).k2 = t.k2 := by
  unfold setGr; split <;> rfl

/-- A general register written reads back exactly, and the other three are unchanged (spec R12, R117). -/
theorem readGr_setGr (i j : BitVec 2) (v : Word) (t : State) :
    readGr j (setGr i v t) = if j = i then v else readGr j t := by
  unfold readGr setGr
  split <;> split <;> rfl

/-- `readGr` depends on the four general registers only. -/
theorem readGr_congr {s t : State} (h0 : s.gr0 = t.gr0) (h1 : s.gr1 = t.gr1) (h2 : s.gr2 = t.gr2)
    (h3 : s.gr3 = t.gr3) (i : BitVec 2) : readGr i s = readGr i t := by
  unfold readGr; split <;> assumption

/-- States that agree in every field are equal. -/
theorem State.eq_of_fields {x y : State} (pc : x.pc = y.pc) (asr : x.asr = y.asr) (ar : x.ar = y.ar)
    (hr : x.hr = y.hr) (gr0 : x.gr0 = y.gr0) (gr1 : x.gr1 = y.gr1) (gr2 : x.gr2 = y.gr2) (gr3 : x.gr3 = y.gr3)
    (ir : x.ir = y.ir) (upc : x.upc = y.upc) (usp : x.usp = y.usp) (lc : x.lc = y.lc) (z : x.z = y.z)
    (n : x.n = y.n) (o : x.o = y.o) (c : x.c = y.c) (l : x.l = y.l) (halted : x.halted = y.halted)
    (cycleCount : x.cycleCount = y.cycleCount) (pm : x.pm = y.pm) (cs : x.cs = y.cs) (k1 : x.k1 = y.k1)
    (k2 : x.k2 = y.k2) : x = y := by
  cases x; cases y; subst_vars; rfl

end Sys2Proof.Machine
end

