-- ==== Sys2Proof/Laws/Cycle.lean ====
section
/-! SUPPORT. What each stage of a micro-cycle can do, and from these what a whole micro-cycle does to each
field. Proofs about `exec` and `step` cite these and unfold no stage. -/

namespace Sys2Proof.Machine

variable (code : FbCode) (sel : BitVec 2) (bus : Word) (old t : State)

/-! ## Write-back (spec R110 to R118): at most the one destination -/

@[simp] theorem writeBack_pc : (writeBack code sel bus old t).pc = if code = .pc then busLow bus else t.pc := by
  cases code <;> simp [writeBack, fbNone, fbIr, fbPm, fbPc, fbRsv, fbHr, fbGr, fbAsr]

@[simp] theorem writeBack_asr : (writeBack code sel bus old t).asr = if code = .asr then busLow bus else t.asr := by
  cases code <;> simp [writeBack, fbNone, fbIr, fbPm, fbPc, fbRsv, fbHr, fbGr, fbAsr]

@[simp] theorem writeBack_ar : (writeBack code sel bus old t).ar = t.ar := by
  cases code <;> simp [writeBack, fbNone, fbIr, fbPm, fbPc, fbRsv, fbHr, fbGr, fbAsr]

@[simp] theorem writeBack_hr : (writeBack code sel bus old t).hr = if code = .hr then bus else t.hr := by
  cases code <;> simp [writeBack, fbNone, fbIr, fbPm, fbPc, fbRsv, fbHr, fbGr, fbAsr]

@[simp] theorem writeBack_gr0 : (writeBack code sel bus old t).gr0 = if code = .gr ∧ sel = 0#2 then bus else t.gr0 := by
  cases code <;> simp [writeBack, fbNone, fbIr, fbPm, fbPc, fbRsv, fbHr, fbGr, fbAsr]

@[simp] theorem writeBack_gr1 : (writeBack code sel bus old t).gr1 = if code = .gr ∧ sel = 1#2 then bus else t.gr1 := by
  cases code <;> simp [writeBack, fbNone, fbIr, fbPm, fbPc, fbRsv, fbHr, fbGr, fbAsr]

@[simp] theorem writeBack_gr2 : (writeBack code sel bus old t).gr2 = if code = .gr ∧ sel = 2#2 then bus else t.gr2 := by
  cases code <;> simp [writeBack, fbNone, fbIr, fbPm, fbPc, fbRsv, fbHr, fbGr, fbAsr]

@[simp] theorem writeBack_gr3 : (writeBack code sel bus old t).gr3 = if code = .gr ∧ sel = 3#2 then bus else t.gr3 := by
  cases code <;> simp [writeBack, fbNone, fbIr, fbPm, fbPc, fbRsv, fbHr, fbGr, fbAsr]

@[simp] theorem writeBack_ir : (writeBack code sel bus old t).ir = if code = .ir then bus else t.ir := by
  cases code <;> simp [writeBack, fbNone, fbIr, fbPm, fbPc, fbRsv, fbHr, fbGr, fbAsr]

@[simp] theorem writeBack_upc : (writeBack code sel bus old t).upc = t.upc := by
  cases code <;> simp [writeBack, fbNone, fbIr, fbPm, fbPc, fbRsv, fbHr, fbGr, fbAsr]

@[simp] theorem writeBack_usp : (writeBack code sel bus old t).usp = t.usp := by
  cases code <;> simp [writeBack, fbNone, fbIr, fbPm, fbPc, fbRsv, fbHr, fbGr, fbAsr]

@[simp] theorem writeBack_lc : (writeBack code sel bus old t).lc = t.lc := by
  cases code <;> simp [writeBack, fbNone, fbIr, fbPm, fbPc, fbRsv, fbHr, fbGr, fbAsr]

@[simp] theorem writeBack_z : (writeBack code sel bus old t).z = t.z := by
  cases code <;> simp [writeBack, fbNone, fbIr, fbPm, fbPc, fbRsv, fbHr, fbGr, fbAsr]

@[simp] theorem writeBack_n : (writeBack code sel bus old t).n = t.n := by
  cases code <;> simp [writeBack, fbNone, fbIr, fbPm, fbPc, fbRsv, fbHr, fbGr, fbAsr]

@[simp] theorem writeBack_o : (writeBack code sel bus old t).o = t.o := by
  cases code <;> simp [writeBack, fbNone, fbIr, fbPm, fbPc, fbRsv, fbHr, fbGr, fbAsr]

@[simp] theorem writeBack_c : (writeBack code sel bus old t).c = t.c := by
  cases code <;> simp [writeBack, fbNone, fbIr, fbPm, fbPc, fbRsv, fbHr, fbGr, fbAsr]

@[simp] theorem writeBack_l : (writeBack code sel bus old t).l = t.l := by
  cases code <;> simp [writeBack, fbNone, fbIr, fbPm, fbPc, fbRsv, fbHr, fbGr, fbAsr]

@[simp] theorem writeBack_halted : (writeBack code sel bus old t).halted = t.halted := by
  cases code <;> simp [writeBack, fbNone, fbIr, fbPm, fbPc, fbRsv, fbHr, fbGr, fbAsr]

@[simp] theorem writeBack_cycleCount : (writeBack code sel bus old t).cycleCount = t.cycleCount := by
  cases code <;> simp [writeBack, fbNone, fbIr, fbPm, fbPc, fbRsv, fbHr, fbGr, fbAsr]

@[simp] theorem writeBack_pm : (writeBack code sel bus old t).pm = if code = .pm then t.pm.write old.asr.toNat bus else t.pm := by
  cases code <;> simp [writeBack, fbNone, fbIr, fbPm, fbPc, fbRsv, fbHr, fbGr, fbAsr]

@[simp] theorem writeBack_cs : (writeBack code sel bus old t).cs = t.cs := by
  cases code <;> simp [writeBack, fbNone, fbIr, fbPm, fbPc, fbRsv, fbHr, fbGr, fbAsr]

@[simp] theorem writeBack_k1 : (writeBack code sel bus old t).k1 = t.k1 := by
  cases code <;> simp [writeBack, fbNone, fbIr, fbPm, fbPc, fbRsv, fbHr, fbGr, fbAsr]

@[simp] theorem writeBack_k2 : (writeBack code sel bus old t).k2 = t.k2 := by
  cases code <;> simp [writeBack, fbNone, fbIr, fbPm, fbPc, fbRsv, fbHr, fbGr, fbAsr]

/-! ## PC auto-increment (R119, R126) -/

@[simp] theorem pcControl_pc (p : PCode) : (pcControl p old t).pc = if p = .inc then old.pc + 1#8 else t.pc := by
  cases p <;> simp [pcControl, pcHold, pcInc]

@[simp] theorem pcControl_asr (p : PCode) : (pcControl p old t).asr = t.asr := by
  cases p <;> simp [pcControl, pcHold, pcInc]

@[simp] theorem pcControl_ar (p : PCode) : (pcControl p old t).ar = t.ar := by
  cases p <;> simp [pcControl, pcHold, pcInc]

@[simp] theorem pcControl_hr (p : PCode) : (pcControl p old t).hr = t.hr := by
  cases p <;> simp [pcControl, pcHold, pcInc]

@[simp] theorem pcControl_gr0 (p : PCode) : (pcControl p old t).gr0 = t.gr0 := by
  cases p <;> simp [pcControl, pcHold, pcInc]

@[simp] theorem pcControl_gr1 (p : PCode) : (pcControl p old t).gr1 = t.gr1 := by
  cases p <;> simp [pcControl, pcHold, pcInc]

@[simp] theorem pcControl_gr2 (p : PCode) : (pcControl p old t).gr2 = t.gr2 := by
  cases p <;> simp [pcControl, pcHold, pcInc]

@[simp] theorem pcControl_gr3 (p : PCode) : (pcControl p old t).gr3 = t.gr3 := by
  cases p <;> simp [pcControl, pcHold, pcInc]

@[simp] theorem pcControl_ir (p : PCode) : (pcControl p old t).ir = t.ir := by
  cases p <;> simp [pcControl, pcHold, pcInc]

@[simp] theorem pcControl_upc (p : PCode) : (pcControl p old t).upc = t.upc := by
  cases p <;> simp [pcControl, pcHold, pcInc]

@[simp] theorem pcControl_usp (p : PCode) : (pcControl p old t).usp = t.usp := by
  cases p <;> simp [pcControl, pcHold, pcInc]

@[simp] theorem pcControl_lc (p : PCode) : (pcControl p old t).lc = t.lc := by
  cases p <;> simp [pcControl, pcHold, pcInc]

@[simp] theorem pcControl_z (p : PCode) : (pcControl p old t).z = t.z := by
  cases p <;> simp [pcControl, pcHold, pcInc]

@[simp] theorem pcControl_n (p : PCode) : (pcControl p old t).n = t.n := by
  cases p <;> simp [pcControl, pcHold, pcInc]

@[simp] theorem pcControl_o (p : PCode) : (pcControl p old t).o = t.o := by
  cases p <;> simp [pcControl, pcHold, pcInc]

@[simp] theorem pcControl_c (p : PCode) : (pcControl p old t).c = t.c := by
  cases p <;> simp [pcControl, pcHold, pcInc]

@[simp] theorem pcControl_l (p : PCode) : (pcControl p old t).l = t.l := by
  cases p <;> simp [pcControl, pcHold, pcInc]

@[simp] theorem pcControl_halted (p : PCode) : (pcControl p old t).halted = t.halted := by
  cases p <;> simp [pcControl, pcHold, pcInc]

@[simp] theorem pcControl_cycleCount (p : PCode) : (pcControl p old t).cycleCount = t.cycleCount := by
  cases p <;> simp [pcControl, pcHold, pcInc]

@[simp] theorem pcControl_pm (p : PCode) : (pcControl p old t).pm = t.pm := by
  cases p <;> simp [pcControl, pcHold, pcInc]

@[simp] theorem pcControl_cs (p : PCode) : (pcControl p old t).cs = t.cs := by
  cases p <;> simp [pcControl, pcHold, pcInc]

@[simp] theorem pcControl_k1 (p : PCode) : (pcControl p old t).k1 = t.k1 := by
  cases p <;> simp [pcControl, pcHold, pcInc]

@[simp] theorem pcControl_k2 (p : PCode) : (pcControl p old t).k2 = t.k2 := by
  cases p <;> simp [pcControl, pcHold, pcInc]

/-! ## Loop counter (R121 to R125) -/

@[simp] theorem loopControl_pc (m : Micro) : (loopControl m bus old t).pc = t.pc := rfl

@[simp] theorem loopControl_asr (m : Micro) : (loopControl m bus old t).asr = t.asr := rfl

@[simp] theorem loopControl_ar (m : Micro) : (loopControl m bus old t).ar = t.ar := rfl

@[simp] theorem loopControl_hr (m : Micro) : (loopControl m bus old t).hr = t.hr := rfl

@[simp] theorem loopControl_gr0 (m : Micro) : (loopControl m bus old t).gr0 = t.gr0 := rfl

@[simp] theorem loopControl_gr1 (m : Micro) : (loopControl m bus old t).gr1 = t.gr1 := rfl

@[simp] theorem loopControl_gr2 (m : Micro) : (loopControl m bus old t).gr2 = t.gr2 := rfl

@[simp] theorem loopControl_gr3 (m : Micro) : (loopControl m bus old t).gr3 = t.gr3 := rfl

@[simp] theorem loopControl_ir (m : Micro) : (loopControl m bus old t).ir = t.ir := rfl

@[simp] theorem loopControl_upc (m : Micro) : (loopControl m bus old t).upc = t.upc := rfl

@[simp] theorem loopControl_usp (m : Micro) : (loopControl m bus old t).usp = t.usp := rfl

@[simp] theorem loopControl_lc (m : Micro) : (loopControl m bus old t).lc = lcNext m bus old := rfl

@[simp] theorem loopControl_z (m : Micro) : (loopControl m bus old t).z = t.z := rfl

@[simp] theorem loopControl_n (m : Micro) : (loopControl m bus old t).n = t.n := rfl

@[simp] theorem loopControl_o (m : Micro) : (loopControl m bus old t).o = t.o := rfl

@[simp] theorem loopControl_c (m : Micro) : (loopControl m bus old t).c = t.c := rfl

@[simp] theorem loopControl_l (m : Micro) : (loopControl m bus old t).l = flagL (lcNext m bus old) := rfl

@[simp] theorem loopControl_halted (m : Micro) : (loopControl m bus old t).halted = t.halted := rfl

@[simp] theorem loopControl_cycleCount (m : Micro) : (loopControl m bus old t).cycleCount = t.cycleCount := rfl

@[simp] theorem loopControl_pm (m : Micro) : (loopControl m bus old t).pm = t.pm := rfl

@[simp] theorem loopControl_cs (m : Micro) : (loopControl m bus old t).cs = t.cs := rfl

@[simp] theorem loopControl_k1 (m : Micro) : (loopControl m bus old t).k1 = t.k1 := rfl

@[simp] theorem loopControl_k2 (m : Micro) : (loopControl m bus old t).k2 = t.k2 := rfl

/-! ## Sequencer (R160 to R179): uPC always, uSP for CALL, the halt latch for HALT -/

@[simp] theorem sequencer_pc (m : Micro) (f : SeqFlags) : (sequencer m f old t).pc = t.pc := by
  unfold sequencer; split <;> simp_all [seqNext, seqK1, seqK2, seqZero, seqJnz, seqJmp, seqCall, seqRet, seqJz, seqJn, seqJc, seqJo, seqJl,
    seqJnc, seqJno, seqHalt]

@[simp] theorem sequencer_asr (m : Micro) (f : SeqFlags) : (sequencer m f old t).asr = t.asr := by
  unfold sequencer; split <;> simp_all [seqNext, seqK1, seqK2, seqZero, seqJnz, seqJmp, seqCall, seqRet, seqJz, seqJn, seqJc, seqJo, seqJl,
    seqJnc, seqJno, seqHalt]

@[simp] theorem sequencer_ar (m : Micro) (f : SeqFlags) : (sequencer m f old t).ar = t.ar := by
  unfold sequencer; split <;> simp_all [seqNext, seqK1, seqK2, seqZero, seqJnz, seqJmp, seqCall, seqRet, seqJz, seqJn, seqJc, seqJo, seqJl,
    seqJnc, seqJno, seqHalt]

@[simp] theorem sequencer_hr (m : Micro) (f : SeqFlags) : (sequencer m f old t).hr = t.hr := by
  unfold sequencer; split <;> simp_all [seqNext, seqK1, seqK2, seqZero, seqJnz, seqJmp, seqCall, seqRet, seqJz, seqJn, seqJc, seqJo, seqJl,
    seqJnc, seqJno, seqHalt]

@[simp] theorem sequencer_gr0 (m : Micro) (f : SeqFlags) : (sequencer m f old t).gr0 = t.gr0 := by
  unfold sequencer; split <;> simp_all [seqNext, seqK1, seqK2, seqZero, seqJnz, seqJmp, seqCall, seqRet, seqJz, seqJn, seqJc, seqJo, seqJl,
    seqJnc, seqJno, seqHalt]

@[simp] theorem sequencer_gr1 (m : Micro) (f : SeqFlags) : (sequencer m f old t).gr1 = t.gr1 := by
  unfold sequencer; split <;> simp_all [seqNext, seqK1, seqK2, seqZero, seqJnz, seqJmp, seqCall, seqRet, seqJz, seqJn, seqJc, seqJo, seqJl,
    seqJnc, seqJno, seqHalt]

@[simp] theorem sequencer_gr2 (m : Micro) (f : SeqFlags) : (sequencer m f old t).gr2 = t.gr2 := by
  unfold sequencer; split <;> simp_all [seqNext, seqK1, seqK2, seqZero, seqJnz, seqJmp, seqCall, seqRet, seqJz, seqJn, seqJc, seqJo, seqJl,
    seqJnc, seqJno, seqHalt]

@[simp] theorem sequencer_gr3 (m : Micro) (f : SeqFlags) : (sequencer m f old t).gr3 = t.gr3 := by
  unfold sequencer; split <;> simp_all [seqNext, seqK1, seqK2, seqZero, seqJnz, seqJmp, seqCall, seqRet, seqJz, seqJn, seqJc, seqJo, seqJl,
    seqJnc, seqJno, seqHalt]

@[simp] theorem sequencer_ir (m : Micro) (f : SeqFlags) : (sequencer m f old t).ir = t.ir := by
  unfold sequencer; split <;> simp_all [seqNext, seqK1, seqK2, seqZero, seqJnz, seqJmp, seqCall, seqRet, seqJz, seqJn, seqJc, seqJo, seqJl,
    seqJnc, seqJno, seqHalt]

@[simp] theorem sequencer_usp (m : Micro) (f : SeqFlags) : (sequencer m f old t).usp = if m.seq = .call then old.upc else t.usp := by
  unfold sequencer; split <;> simp_all [seqNext, seqK1, seqK2, seqZero, seqJnz, seqJmp, seqCall, seqRet, seqJz, seqJn, seqJc, seqJo, seqJl,
    seqJnc, seqJno, seqHalt]

@[simp] theorem sequencer_lc (m : Micro) (f : SeqFlags) : (sequencer m f old t).lc = t.lc := by
  unfold sequencer; split <;> simp_all [seqNext, seqK1, seqK2, seqZero, seqJnz, seqJmp, seqCall, seqRet, seqJz, seqJn, seqJc, seqJo, seqJl,
    seqJnc, seqJno, seqHalt]

@[simp] theorem sequencer_z (m : Micro) (f : SeqFlags) : (sequencer m f old t).z = t.z := by
  unfold sequencer; split <;> simp_all [seqNext, seqK1, seqK2, seqZero, seqJnz, seqJmp, seqCall, seqRet, seqJz, seqJn, seqJc, seqJo, seqJl,
    seqJnc, seqJno, seqHalt]

@[simp] theorem sequencer_n (m : Micro) (f : SeqFlags) : (sequencer m f old t).n = t.n := by
  unfold sequencer; split <;> simp_all [seqNext, seqK1, seqK2, seqZero, seqJnz, seqJmp, seqCall, seqRet, seqJz, seqJn, seqJc, seqJo, seqJl,
    seqJnc, seqJno, seqHalt]

@[simp] theorem sequencer_o (m : Micro) (f : SeqFlags) : (sequencer m f old t).o = t.o := by
  unfold sequencer; split <;> simp_all [seqNext, seqK1, seqK2, seqZero, seqJnz, seqJmp, seqCall, seqRet, seqJz, seqJn, seqJc, seqJo, seqJl,
    seqJnc, seqJno, seqHalt]

@[simp] theorem sequencer_c (m : Micro) (f : SeqFlags) : (sequencer m f old t).c = t.c := by
  unfold sequencer; split <;> simp_all [seqNext, seqK1, seqK2, seqZero, seqJnz, seqJmp, seqCall, seqRet, seqJz, seqJn, seqJc, seqJo, seqJl,
    seqJnc, seqJno, seqHalt]

@[simp] theorem sequencer_l (m : Micro) (f : SeqFlags) : (sequencer m f old t).l = t.l := by
  unfold sequencer; split <;> simp_all [seqNext, seqK1, seqK2, seqZero, seqJnz, seqJmp, seqCall, seqRet, seqJz, seqJn, seqJc, seqJo, seqJl,
    seqJnc, seqJno, seqHalt]

@[simp] theorem sequencer_halted (m : Micro) (f : SeqFlags) : (sequencer m f old t).halted = if m.seq = .halt then true else t.halted := by
  unfold sequencer; split <;> simp_all [seqNext, seqK1, seqK2, seqZero, seqJnz, seqJmp, seqCall, seqRet, seqJz, seqJn, seqJc, seqJo, seqJl,
    seqJnc, seqJno, seqHalt]

@[simp] theorem sequencer_cycleCount (m : Micro) (f : SeqFlags) : (sequencer m f old t).cycleCount = t.cycleCount := by
  unfold sequencer; split <;> simp_all [seqNext, seqK1, seqK2, seqZero, seqJnz, seqJmp, seqCall, seqRet, seqJz, seqJn, seqJc, seqJo, seqJl,
    seqJnc, seqJno, seqHalt]

@[simp] theorem sequencer_pm (m : Micro) (f : SeqFlags) : (sequencer m f old t).pm = t.pm := by
  unfold sequencer; split <;> simp_all [seqNext, seqK1, seqK2, seqZero, seqJnz, seqJmp, seqCall, seqRet, seqJz, seqJn, seqJc, seqJo, seqJl,
    seqJnc, seqJno, seqHalt]

@[simp] theorem sequencer_cs (m : Micro) (f : SeqFlags) : (sequencer m f old t).cs = t.cs := by
  unfold sequencer; split <;> simp_all [seqNext, seqK1, seqK2, seqZero, seqJnz, seqJmp, seqCall, seqRet, seqJz, seqJn, seqJc, seqJo, seqJl,
    seqJnc, seqJno, seqHalt]

@[simp] theorem sequencer_k1 (m : Micro) (f : SeqFlags) : (sequencer m f old t).k1 = t.k1 := by
  unfold sequencer; split <;> simp_all [seqNext, seqK1, seqK2, seqZero, seqJnz, seqJmp, seqCall, seqRet, seqJz, seqJn, seqJc, seqJo, seqJl,
    seqJnc, seqJno, seqHalt]

@[simp] theorem sequencer_k2 (m : Micro) (f : SeqFlags) : (sequencer m f old t).k2 = t.k2 := by
  unfold sequencer; split <;> simp_all [seqNext, seqK1, seqK2, seqZero, seqJnz, seqJmp, seqCall, seqRet, seqJz, seqJn, seqJc, seqJo, seqJl,
    seqJnc, seqJno, seqHalt]

/-- The new uPC comes from the prior snapshot alone (R82, R178). -/
theorem sequencer_upc_congr (m : Micro) (f : SeqFlags) (t' : State) :
    (sequencer m f old t).upc = (sequencer m f old t').upc := by
  unfold sequencer; split <;> rfl

/-- The new LC depends on the word through LC control and IMM8 alone (R121 to R124). -/
theorem lcNext_congr {m m' : Micro} (hl : m.lc = m'.lc) (hi : m.imm8 = m'.imm8) :
    lcNext m bus old = lcNext m' bus old := by
  unfold lcNext lcImm; rw [hl, hi]

/-! ## The micro-cycle -/

/-- The new uPC of a normal cycle under a flag view (R160, R178). -/
def upcAfter (view : FlagView) (m : Micro) (s : State) : Byte :=
  (sequencer m (seqFlags view (aluStage m s) s) s s).upc

variable (view : FlagView) (m : Micro) (s : State)

@[simp] theorem normalPath_pc :
    (normalPath view m s).pc = if m.p = .inc then s.pc + 1#8 else if m.fb = .pc then busLow (busSource m s) else s.pc := by
  simp [normalPath]

@[simp] theorem normalPath_asr :
    (normalPath view m s).asr = if m.fb = .asr then busLow (busSource m s) else s.asr := by
  simp [normalPath]

@[simp] theorem normalPath_ar :
    (normalPath view m s).ar = (aluStage m s).ar := by
  simp [normalPath]

@[simp] theorem normalPath_hr :
    (normalPath view m s).hr = if m.fb = .hr then busSource m s else (aluStage m s).hr := by
  simp [normalPath]

@[simp] theorem normalPath_gr0 :
    (normalPath view m s).gr0 = if m.fb = .gr ∧ selIndex m.s s = 0#2 then busSource m s else s.gr0 := by
  simp [normalPath]

@[simp] theorem normalPath_gr1 :
    (normalPath view m s).gr1 = if m.fb = .gr ∧ selIndex m.s s = 1#2 then busSource m s else s.gr1 := by
  simp [normalPath]

@[simp] theorem normalPath_gr2 :
    (normalPath view m s).gr2 = if m.fb = .gr ∧ selIndex m.s s = 2#2 then busSource m s else s.gr2 := by
  simp [normalPath]

@[simp] theorem normalPath_gr3 :
    (normalPath view m s).gr3 = if m.fb = .gr ∧ selIndex m.s s = 3#2 then busSource m s else s.gr3 := by
  simp [normalPath]

@[simp] theorem normalPath_ir :
    (normalPath view m s).ir = if m.fb = .ir then busSource m s else s.ir := by
  simp [normalPath]

@[simp] theorem normalPath_usp :
    (normalPath view m s).usp = if m.seq = .call then s.upc else s.usp := by
  simp [normalPath]

@[simp] theorem normalPath_lc :
    (normalPath view m s).lc = lcNext m (busSource m s) s := by
  simp [normalPath]

@[simp] theorem normalPath_z :
    (normalPath view m s).z = (aluStage m s).z := by
  simp [normalPath]

@[simp] theorem normalPath_n :
    (normalPath view m s).n = (aluStage m s).n := by
  simp [normalPath]

@[simp] theorem normalPath_o :
    (normalPath view m s).o = (aluStage m s).o := by
  simp [normalPath]

@[simp] theorem normalPath_c :
    (normalPath view m s).c = (aluStage m s).c := by
  simp [normalPath]

@[simp] theorem normalPath_l :
    (normalPath view m s).l = flagL (lcNext m (busSource m s) s) := by
  simp [normalPath]

@[simp] theorem normalPath_halted :
    (normalPath view m s).halted = if m.seq = .halt then true else s.halted := by
  simp [normalPath]

@[simp] theorem normalPath_cycleCount :
    (normalPath view m s).cycleCount = s.cycleCount + 1 := by
  simp [normalPath]

@[simp] theorem normalPath_pm :
    (normalPath view m s).pm = if m.fb = .pm then s.pm.write s.asr.toNat (busSource m s) else s.pm := by
  simp [normalPath]

@[simp] theorem normalPath_cs :
    (normalPath view m s).cs = s.cs := by
  simp [normalPath]

@[simp] theorem normalPath_k1 :
    (normalPath view m s).k1 = s.k1 := by
  simp [normalPath]

@[simp] theorem normalPath_k2 :
    (normalPath view m s).k2 = s.k2 := by
  simp [normalPath]

@[simp] theorem normalPath_upc : (normalPath view m s).upc = upcAfter view m s := by
  rw [normalPath, tick_upc]; exact sequencer_upc_congr _ _ _ _ _

/-- A general register after a normal cycle (R117). -/
theorem readGr_normalPath (i : BitVec 2) :
    readGr i (normalPath view m s) =
      if m.fb = .gr ∧ i = selIndex m.s s then busSource m s else readGr i s := by
  unfold readGr
  split <;> simp [eq_comm (a := selIndex m.s s)]

@[simp] theorem literalPath_pc : (literalPath m s).pc = s.pc := rfl

@[simp] theorem literalPath_asr : (literalPath m s).asr = s.asr := rfl

@[simp] theorem literalPath_ar : (literalPath m s).ar = (aluStage m s).ar := rfl

@[simp] theorem literalPath_hr : (literalPath m s).hr = (aluStage m s).hr := rfl

@[simp] theorem literalPath_gr0 : (literalPath m s).gr0 = s.gr0 := rfl

@[simp] theorem literalPath_gr1 : (literalPath m s).gr1 = s.gr1 := rfl

@[simp] theorem literalPath_gr2 : (literalPath m s).gr2 = s.gr2 := rfl

@[simp] theorem literalPath_gr3 : (literalPath m s).gr3 = s.gr3 := rfl

@[simp] theorem literalPath_ir : (literalPath m s).ir = s.ir := rfl

@[simp] theorem literalPath_upc : (literalPath m s).upc = s.upc := rfl

@[simp] theorem literalPath_usp : (literalPath m s).usp = s.usp := rfl

@[simp] theorem literalPath_lc : (literalPath m s).lc = s.lc := rfl

@[simp] theorem literalPath_z : (literalPath m s).z = (aluStage m s).z := rfl

@[simp] theorem literalPath_n : (literalPath m s).n = (aluStage m s).n := rfl

@[simp] theorem literalPath_o : (literalPath m s).o = (aluStage m s).o := rfl

@[simp] theorem literalPath_c : (literalPath m s).c = (aluStage m s).c := rfl

@[simp] theorem literalPath_l : (literalPath m s).l = s.l := rfl

@[simp] theorem literalPath_halted : (literalPath m s).halted = s.halted := rfl

@[simp] theorem literalPath_cycleCount : (literalPath m s).cycleCount = s.cycleCount + 1 := rfl

@[simp] theorem literalPath_pm : (literalPath m s).pm = s.pm := rfl

@[simp] theorem literalPath_cs : (literalPath m s).cs = s.cs := rfl

@[simp] theorem literalPath_k1 : (literalPath m s).k1 = s.k1 := rfl

@[simp] theorem literalPath_k2 : (literalPath m s).k2 = s.k2 := rfl

/-- Literal mode is TB = 7 (R90). -/
theorem microCycleWith_lit (h : m.tb = .lit) : microCycleWith view m s = literalPath m s := by
  simp [microCycleWith, h]

/-- Every other cycle takes the normal path (R91). -/
theorem microCycleWith_normal (h : m.tb ≠ .lit) : microCycleWith view m s = normalPath view m s := by
  unfold microCycleWith; split <;> simp_all

theorem microCycle_lit (h : m.tb = .lit) : microCycle m s = literalPath m s :=
  microCycleWith_lit _ m s h

theorem microCycle_normal (h : m.tb ≠ .lit) : microCycle m s = normalPath .pre m s :=
  microCycleWith_normal _ m s h

/-- A micro-cycle takes one of the two paths. -/
theorem microCycle_cases :
    (m.tb = .lit ∧ microCycle m s = literalPath m s) ∨
      (m.tb ≠ .lit ∧ microCycle m s = normalPath .pre m s) := by
  by_cases h : m.tb = .lit
  · exact .inl ⟨h, microCycle_lit m s h⟩
  · exact .inr ⟨h, microCycle_normal m s h⟩

end Sys2Proof.Machine
end

