-- ==== Sys2Proof/Laws/Alu.lean ====
section
/-! SUPPORT. The ALU's operations and flags in the spec's own arithmetic (spec/43_alu.md): each lemma says once,
on natural numbers, what a bit-vector operation of the model gives. -/

namespace Sys2Proof.Machine

open Sys2Proof.Safety

theorem getLsbD_eq_bitOf {w : Nat} (v : BitVec w) (k : Nat) : v.getLsbD k = decide (bitOf v.toNat k = 1) := by
  rw [BitVec.getLsbD, Nat.testBit_eq_decide_div_mod_eq]; rfl

theorem bitOf_cases (v k : Nat) : bitOf v k = 0 ∨ bitOf v k = 1 := by unfold bitOf; omega

/-! ## Flags (R135, R141, R148, R149) -/

theorem flagZ_iff (v : Word) : flagZ v = true ↔ v.toNat = 0 := by
  rw [flagZ, beq_iff_eq, ← BitVec.toNat_inj]; rfl

theorem flagZ32_iff (v : Word32) : flagZ32 v = true ↔ v.toNat = 0 := by
  rw [flagZ32, beq_iff_eq, ← BitVec.toNat_inj]; rfl

theorem flagN_iff (v : Word) : flagN v = true ↔ bitOf v.toNat 15 = 1 := by
  rw [flagN, getLsbD_eq_bitOf, decide_eq_true_iff]

theorem flagN32_iff (v : Word32) : flagN32 v = true ↔ bitOf v.toNat 31 = 1 := by
  rw [flagN32, getLsbD_eq_bitOf, decide_eq_true_iff]

theorem flagCLeft_iff (v : Word) : flagCLeft v = true ↔ bitOf v.toNat 7 = 1 := by
  rw [flagCLeft, getLsbD_eq_bitOf, decide_eq_true_iff]

theorem flagCBit0_iff (v : Word) : flagCBit0 v = true ↔ bitOf v.toNat 0 = 1 := by
  rw [flagCBit0, getLsbD_eq_bitOf, decide_eq_true_iff]

theorem toInt_eq_s16 (v : Word) : v.toInt = s16 v.toNat := by
  rw [BitVec.toInt_eq_toNat_cond, s16]; have := v.isLt; split <;> split <;> omega

theorem flagCAdd_iff (ar r : Word) : flagCAdd ar r = true ↔ s16 r.toNat ≤ s16 ar.toNat := by
  simp [flagCAdd, BitVec.sle, toInt_eq_s16]

/-! ## The pair and its shifts (R14, R141 to R146) -/

theorem toNat_pair (x : AluRegs) : (pair x).toNat = x.ar.toNat * 65536 + x.hr.toNat := by
  rw [pair, BitVec.toNat_append, ← Nat.shiftLeft_add_eq_or_of_lt x.hr.isLt, Nat.shiftLeft_eq]

theorem toNat_upper (v : Word32) : (upper v).toNat = v.toNat / 65536 := by
  rw [upper, BitVec.extractLsb'_toNat, Nat.shiftRight_eq_div_pow]; have := v.isLt; omega

theorem toNat_lower (v : Word32) : (lower v).toNat = v.toNat % 65536 := by
  rw [lower, BitVec.extractLsb'_toNat]; rfl

theorem toNat_sshiftRight16 (v : Word) :
    (v.sshiftRight 1).toNat = v.toNat / 2 + bitOf v.toNat 15 * 32768 := by
  rw [BitVec.toNat_sshiftRight, BitVec.msb_eq_decide]
  have := v.isLt
  unfold bitOf
  simp only [Nat.shiftRight_eq_div_pow]
  split <;> simp_all <;> omega

theorem toNat_sshiftRight32 (v : Word32) :
    (v.sshiftRight 1).toNat = v.toNat / 2 + bitOf v.toNat 31 * 2147483648 := by
  rw [BitVec.toNat_sshiftRight, BitVec.msb_eq_decide]
  have := v.isLt
  unfold bitOf
  simp only [Nat.shiftRight_eq_div_pow]
  split <;> simp_all <;> omega

theorem toNat_rotateLeft16 (v : Word) :
    (v.rotateLeft 1).toNat = v.toNat * 2 % 65536 + bitOf v.toNat 15 := by
  have h : v.rotateLeft 1 = (v.extractLsb' 0 15 ++ v.extractLsb' 15 1 : BitVec 16) := by
    apply BitVec.eq_of_getLsbD_eq; intro i hi
    rw [BitVec.getLsbD_append, BitVec.getLsbD_rotateLeft]
    simp only [BitVec.getLsbD_extractLsb']
    interval_cases i <;> simp
  rw [h, BitVec.toNat_append, ← Nat.shiftLeft_add_eq_or_of_lt (BitVec.isLt _), BitVec.extractLsb'_toNat,
    BitVec.extractLsb'_toNat, Nat.shiftLeft_eq, Nat.shiftRight_eq_div_pow, Nat.shiftRight_eq_div_pow]
  unfold bitOf; omega

theorem toNat_rotateLeft32 (v : Word32) :
    (v.rotateLeft 1).toNat = v.toNat * 2 % 4294967296 + bitOf v.toNat 31 := by
  have h : v.rotateLeft 1 = (v.extractLsb' 0 31 ++ v.extractLsb' 31 1 : BitVec 32) := by
    apply BitVec.eq_of_getLsbD_eq; intro i hi
    rw [BitVec.getLsbD_append, BitVec.getLsbD_rotateLeft]
    simp only [BitVec.getLsbD_extractLsb']
    interval_cases i <;> simp
  rw [h, BitVec.toNat_append, ← Nat.shiftLeft_add_eq_or_of_lt (BitVec.isLt _), BitVec.extractLsb'_toNat,
    BitVec.extractLsb'_toNat, Nat.shiftLeft_eq, Nat.shiftRight_eq_div_pow, Nat.shiftRight_eq_div_pow]
  unfold bitOf; omega

/-! ## What the sixteen codes leave alone (R150) -/

/-- HR is the ALU's output for codes 10 and 12 only (R130). -/
theorem alu_hr (code : AluCode) (bus : Word) (x : AluRegs) (h1 : code ≠ .lsl32) (h2 : code ≠ .asr32) :
    (alu code bus x).hr = x.hr := by
  cases code <;> first | rfl | contradiction

/-- O is written by code 4 only (R24). -/
theorem alu_o (code : AluCode) (bus : Word) (x : AluRegs) (h : code ≠ .add) : (alu code bus x).o = x.o := by
  cases code <;> first | rfl | contradiction

/-- Z and N are kept by codes 0, 1, 2 and 8 (R22, R23). -/
theorem alu_zn (code : AluCode) (bus : Word) (x : AluRegs)
    (h : code = .nop ∨ code = .ld ∨ code = .ldn ∨ code = .addq) :
    (alu code bus x).z = x.z ∧ (alu code bus x).n = x.n := by
  rcases h with rfl | rfl | rfl | rfl <;> exact ⟨rfl, rfl⟩

/-- C is kept by codes 0 to 3 and 6 to 8 (R25). -/
theorem alu_c (code : AluCode) (bus : Word) (x : AluRegs)
    (h : code = .nop ∨ code = .ld ∨ code = .ldn ∨ code = .clr ∨ code = .and ∨ code = .or ∨ code = .addq) :
    (alu code bus x).c = x.c := by
  rcases h with rfl | rfl | rfl | rfl | rfl | rfl | rfl <;> rfl

end Sys2Proof.Machine
end

