-- ==== Sys2Proof/Laws/Encoding.lean ====
section
/-! SUPPORT. Small lemmas of the encoding: codes and their bits are one to one, and a row determines its
word. -/

namespace Sys2Proof

@[simp] theorem AluCode.ofBits_bits (a : AluCode) : AluCode.ofBits a.bits = a := by cases a <;> rfl
@[simp] theorem TbCode.ofBits_bits (a : TbCode) : TbCode.ofBits a.bits = a := by cases a <;> rfl
@[simp] theorem FbCode.ofBits_bits (a : FbCode) : FbCode.ofBits a.bits = a := by cases a <;> rfl
@[simp] theorem SCode.ofBits_bits (a : SCode) : SCode.ofBits a.bits = a := by cases a <;> rfl
@[simp] theorem PCode.ofBits_bits (a : PCode) : PCode.ofBits a.bits = a := by cases a <;> rfl
@[simp] theorem LcCode.ofBits_bits (a : LcCode) : LcCode.ofBits a.bits = a := by cases a <;> rfl
@[simp] theorem SeqCode.ofBits_bits (a : SeqCode) : SeqCode.ofBits a.bits = a := by cases a <;> rfl

@[simp] theorem AluCode.bits_ofBits : ∀ b, (AluCode.ofBits b).bits = b := by decide
@[simp] theorem TbCode.bits_ofBits : ∀ b, (TbCode.ofBits b).bits = b := by decide
@[simp] theorem FbCode.bits_ofBits : ∀ b, (FbCode.ofBits b).bits = b := by decide
@[simp] theorem SCode.bits_ofBits : ∀ b, (SCode.ofBits b).bits = b := by decide
@[simp] theorem PCode.bits_ofBits : ∀ b, (PCode.ofBits b).bits = b := by decide
@[simp] theorem LcCode.bits_ofBits : ∀ b, (LcCode.ofBits b).bits = b := by decide
@[simp] theorem SeqCode.bits_ofBits : ∀ b, (SeqCode.ofBits b).bits = b := by decide

/-- Each of the seven rows of a microinstruction stands for that whole microinstruction. -/
@[simp] theorem Micro.micro_row (m : Micro) (g : FieldGroup) : (m.row g).micro = m := by
  obtain ⟨alu, tb, fb, s, p, lc, seq, adr⟩ := m
  cases g
  · cases alu <;> rfl
  · cases tb <;> rfl
  · cases fb <;> rfl
  · cases s <;> rfl
  · cases p <;> rfl
  · cases lc <;> rfl
  · cases seq <;> rfl

/-- The row of a field group belongs to that group. -/
@[simp] theorem Micro.group_row (m : Micro) (g : FieldGroup) : (m.row g).group = g := by
  obtain ⟨alu, tb, fb, s, p, lc, seq, adr⟩ := m
  cases g
  · cases alu <;> rfl
  · cases tb <;> rfl
  · cases fb <;> rfl
  · cases s <;> rfl
  · cases p <;> rfl
  · cases lc <;> rfl
  · cases seq <;> rfl

@[simp] theorem micro_nameOf (m : Micro) : (nameOf m).micro = m := Micro.micro_row m m.leading

/-- The seven rows, as a list, are the rows of the seven groups. -/
theorem Micro.mem_rows (m : Micro) (i : Instr) : i ∈ m.rows ↔ ∃ g, i = m.row g := by
  constructor
  · intro h
    simp only [Micro.rows, List.mem_cons, List.not_mem_nil, or_false] at h
    rcases h with h | h | h | h | h | h | h
    exacts [⟨.alu, h⟩, ⟨.tb, h⟩, ⟨.fb, h⟩, ⟨.s, h⟩, ⟨.p, h⟩, ⟨.lc, h⟩, ⟨.seq, h⟩]
  · rintro ⟨g, rfl⟩
    cases g <;> simp [Micro.rows, Micro.row]

/-- The bits of an encoded word, field by field (spec R72). -/
theorem encodeMicro_getLsbD (m : Micro) (k : Nat) : (encodeMicro m).getLsbD k =
    ((decide (k < 32) && (!decide (k < 21) && m.alu.bits.getLsbD (k - 21))) ||
     (decide (k < 32) && (!decide (k < 18) && m.tb.bits.getLsbD (k - 18))) ||
     (decide (k < 32) && (!decide (k < 15) && m.fb.bits.getLsbD (k - 15))) ||
     (decide (k < 32) && (!decide (k < 14) && m.s.bits.getLsbD (k - 14))) ||
     (decide (k < 32) && (!decide (k < 13) && m.p.bits.getLsbD (k - 13))) ||
     (decide (k < 32) && (!decide (k < 11) && m.lc.bits.getLsbD (k - 11))) ||
     (decide (k < 32) && (!decide (k < 7) && m.seq.bits.getLsbD (k - 7))) ||
     (decide (k < 32) && m.adr.getLsbD k)) := by
  simp only [encodeMicro, BitVec.getLsbD_or, BitVec.getLsbD_shiftLeft, BitVec.getLsbD_setWidth]
  by_cases h : k < 32
  · have e : ∀ n, k - n < 32 := fun n => by omega
    simp [h, e]
  · simp [h]

theorem encodeMicro_alu (m : Micro) : (encodeMicro m).extractLsb' aluPos 4 = m.alu.bits := by
  apply BitVec.eq_of_getLsbD_eq; intro i hi
  rw [BitVec.getLsbD_extractLsb', encodeMicro_getLsbD]
  interval_cases i <;> simp [BitVec.getLsbD_of_ge]

theorem encodeMicro_tb (m : Micro) : (encodeMicro m).extractLsb' tbPos 3 = m.tb.bits := by
  apply BitVec.eq_of_getLsbD_eq; intro i hi
  rw [BitVec.getLsbD_extractLsb', encodeMicro_getLsbD]
  interval_cases i <;> simp [BitVec.getLsbD_of_ge]

theorem encodeMicro_fb (m : Micro) : (encodeMicro m).extractLsb' fbPos 3 = m.fb.bits := by
  apply BitVec.eq_of_getLsbD_eq; intro i hi
  rw [BitVec.getLsbD_extractLsb', encodeMicro_getLsbD]
  interval_cases i <;> simp [BitVec.getLsbD_of_ge]

theorem encodeMicro_s (m : Micro) : (encodeMicro m).extractLsb' sPos 1 = m.s.bits := by
  apply BitVec.eq_of_getLsbD_eq; intro i hi
  rw [BitVec.getLsbD_extractLsb', encodeMicro_getLsbD]
  interval_cases i; simp [BitVec.getLsbD_of_ge]

theorem encodeMicro_p (m : Micro) : (encodeMicro m).extractLsb' pPos 1 = m.p.bits := by
  apply BitVec.eq_of_getLsbD_eq; intro i hi
  rw [BitVec.getLsbD_extractLsb', encodeMicro_getLsbD]
  interval_cases i; simp [BitVec.getLsbD_of_ge]

theorem encodeMicro_lc (m : Micro) : (encodeMicro m).extractLsb' lcPos 2 = m.lc.bits := by
  apply BitVec.eq_of_getLsbD_eq; intro i hi
  rw [BitVec.getLsbD_extractLsb', encodeMicro_getLsbD]
  interval_cases i <;> simp [BitVec.getLsbD_of_ge]

theorem encodeMicro_seq (m : Micro) : (encodeMicro m).extractLsb' seqPos 4 = m.seq.bits := by
  apply BitVec.eq_of_getLsbD_eq; intro i hi
  rw [BitVec.getLsbD_extractLsb', encodeMicro_getLsbD]
  interval_cases i <;> simp [BitVec.getLsbD_of_ge]

theorem encodeMicro_adr (m : Micro) : (encodeMicro m).extractLsb' adrPos 7 = m.adr := by
  apply BitVec.eq_of_getLsbD_eq; intro i hi
  rw [BitVec.getLsbD_extractLsb', encodeMicro_getLsbD]
  interval_cases i <;> simp

/-- Matching a field's mask and pattern is the same as having that code in the field: the two ways the opcode
table and R61 describe a row. -/
theorem field_match_iff (w : Word32) (pos n : Nat) (hp : pos + n ≤ 32) (b : BitVec n) :
    (w &&& (BitVec.setWidth 32 (BitVec.allOnes n) <<< pos) = b.setWidth 32 <<< pos) ↔
      w.extractLsb' pos n = b := by
  constructor
  · intro h
    apply BitVec.eq_of_getLsbD_eq; intro i hi
    have h0 := congrArg (fun v => BitVec.getLsbD v (pos + i)) h
    have h1 : pos + i < 32 := by omega
    have h2 : i < 32 := by omega
    simpa [hi, h1, h2, BitVec.getLsbD_extractLsb', BitVec.getLsbD_setWidth, BitVec.getLsbD_allOnes] using h0
  · rintro rfl
    apply BitVec.eq_of_getLsbD_eq; intro i hi
    simp only [BitVec.getLsbD_and, BitVec.getLsbD_shiftLeft, BitVec.getLsbD_setWidth,
      BitVec.getLsbD_extractLsb', BitVec.getLsbD_allOnes]
    by_cases hlt : i < pos
    · simp [hlt]
    · by_cases h2 : i - pos < n
      · have h3 : i - pos < 32 := by omega
        have h4 : pos + (i - pos) = i := by omega
        simp [hlt, h2, h3, h4, hi]
      · simp [h2]

/-- IMM8 is made of SEQ and ADR alone (R64). -/
theorem imm8_congr {m m' : Micro} (hs : m.seq = m'.seq) (ha : m.adr = m'.adr) : m.imm8 = m'.imm8 := by
  apply BitVec.eq_of_getLsbD_eq; intro i hi
  rw [Micro.imm8, Micro.imm8, BitVec.getLsbD_extractLsb', BitVec.getLsbD_extractLsb', encodeMicro_getLsbD,
    encodeMicro_getLsbD, hs, ha]
  interval_cases i <;> simp

end Sys2Proof
end

