-- ==== Sys2Proof/Laws/Exec.lean ====
section
/-! SUPPORT. What `exec` and `step` can do, said once. -/

namespace Sys2Proof.Machine

/-- Every instruction executes as the micro-cycle of its whole word (spec R69). -/
theorem exec_eq_microCycle (i : Instr) (s : State) : exec i s = .next (microCycle i.micro s) := by
  cases i <;> rfl

/-- A step does one of three things (spec R80, R194): nothing, on a halted core; a fault, out of range; or the
micro-cycle of the fetched word. -/
theorem step_cases (s : State) :
    (s.halted = true ∧ step s = .next s) ∨
    (s.halted = false ∧ upcInRange s = false ∧ step s = .fault (.upcOutOfRange s.upc)) ∨
    (s.halted = false ∧ upcInRange s = true ∧
      step s = .next (microCycle (decode (fetchWord s)).micro s)) := by
  unfold step
  cases hh : s.halted
  · cases hu : upcInRange s
    · exact .inr (.inl ⟨rfl, rfl, rfl⟩)
    · exact .inr (.inr ⟨rfl, rfl, by simp [exec_eq_microCycle]⟩)
  · exact .inl ⟨rfl, rfl⟩

theorem upcInRange_iff (s : State) : upcInRange s = true ↔ s.upc.toNat < 128 := by
  simp [upcInRange]

end Sys2Proof.Machine
end

