-- ==== Sys2Proof/Laws/Memory.lean ====
section
/-! SUPPORT. The laws of the cell memories: read after write, and that every memory operation keeps the
canonical form. -/

namespace Sys2Proof.Machine

variable {w : Nat}

theorem Memory.read_entry (a b : Nat) (v : BitVec w) (m : Memory w) :
    (Memory.entry a v m).read b =
      if v = unlisted w then m.read b else if a = b then v else m.read b := by
  unfold Memory.entry; split <;> simp [Memory.read]

/-- Below the lowest listed address a canonical memory reads as unlisted. -/
theorem Memory.read_of_lt {size lo a : Nat} {m : Memory w} (h : m.wfFrom size lo) (ha : a < lo) :
    m.read a = unlisted w := by
  induction m generalizing lo with
  | nil => rfl
  | cons e rest ih =>
    obtain ⟨b, x⟩ := e
    simp only [Memory.wfFrom, Bool.and_eq_true, decide_eq_true_eq] at h
    obtain ⟨⟨⟨hlo, _⟩, _⟩, hr⟩ := h
    rw [Memory.read, if_neg (by omega), ih hr (by omega)]

/-- Read after write, in a canonical memory (spec R44, R45, R50). -/
theorem Memory.read_write {size lo : Nat} {m : Memory w} (h : m.wfFrom size lo) (a b : Nat) (v : BitVec w) :
    (m.write a v).read b = if a = b then v else m.read b := by
  induction m generalizing lo with
  | nil =>
    simp only [Memory.write, Memory.read_entry, Memory.read]
    split <;> simp_all
  | cons e rest ih =>
    obtain ⟨k, x⟩ := e
    simp only [Memory.wfFrom, Bool.and_eq_true, decide_eq_true_eq] at h
    obtain ⟨⟨⟨_, _⟩, _⟩, hr⟩ := h
    unfold Memory.write
    by_cases h1 : a < k
    · rw [if_pos h1, Memory.read_entry]
      by_cases hv : v = unlisted w
      · by_cases hab : a = b
        · subst hab
          rw [if_pos hv, if_pos rfl, Memory.read, if_neg (by omega), Memory.read_of_lt hr (by omega), hv]
        · rw [if_pos hv, if_neg hab]
      · rw [if_neg hv]
    · rw [if_neg h1]
      by_cases h2 : a = k
      · subst h2
        rw [if_pos rfl, Memory.read_entry, Memory.read]
        by_cases hab : a = b
        · subst hab
          simp only [if_true]
          split
          · rw [Memory.read_of_lt hr (by omega)]; simp_all
          · rfl
        · simp [hab]
      · rw [if_neg h2]
        simp only [Memory.read]
        by_cases hkb : k = b
        · subst hkb; simp [h2]
        · rw [if_neg hkb, if_neg hkb]; exact ih hr

/-- A write leaves every other cell as it reads, in any list of cells, canonical or not (spec R45). -/
theorem Memory.read_write_ne (m : Memory w) (a b : Nat) (v : BitVec w) (h : b ≠ a) :
    (m.write a v).read b = m.read b := by
  induction m with
  | nil => simp [Memory.write, Memory.read_entry, Memory.read, Ne.symm h]
  | cons e rest ih =>
    obtain ⟨k, x⟩ := e
    unfold Memory.write
    split
    · simp [Memory.read_entry, Ne.symm h]
    · split
      · subst_vars; simp [Memory.read_entry, Ne.symm h, Memory.read]
      · simp [Memory.read, ih]

theorem Memory.wfFrom_mono {size lo lo' : Nat} {m : Memory w} (h : m.wfFrom size lo') (hl : lo ≤ lo') :
    m.wfFrom size lo := by
  cases m with
  | nil => rfl
  | cons e rest =>
    simp only [Memory.wfFrom, Bool.and_eq_true, decide_eq_true_eq] at h ⊢
    exact ⟨⟨⟨by omega, h.1.1.2⟩, h.1.2⟩, h.2⟩

theorem Memory.wfFrom_entry {size lo a : Nat} {m : Memory w} {v : BitVec w} (hlo : lo ≤ a) (ha : a < size)
    (h : m.wfFrom size (a + 1)) : (Memory.entry a v m).wfFrom size lo := by
  unfold Memory.entry
  split
  · exact Memory.wfFrom_mono h (by omega)
  · simp only [Memory.wfFrom, Bool.and_eq_true, decide_eq_true_eq]
    exact ⟨⟨⟨hlo, ha⟩, by assumption⟩, h⟩

theorem Memory.wfFrom_write {size lo a : Nat} {m : Memory w} {v : BitVec w} (h : m.wfFrom size lo)
    (hlo : lo ≤ a) (ha : a < size) : (m.write a v).wfFrom size lo := by
  induction m generalizing lo with
  | nil => exact Memory.wfFrom_entry hlo ha rfl
  | cons e rest ih =>
    obtain ⟨k, x⟩ := e
    have h' := h
    simp only [Memory.wfFrom, Bool.and_eq_true, decide_eq_true_eq] at h
    obtain ⟨⟨⟨h1, h2⟩, h3⟩, hr⟩ := h
    unfold Memory.write
    split
    · refine Memory.wfFrom_entry hlo ha ?_
      simp only [Memory.wfFrom, Bool.and_eq_true, decide_eq_true_eq]
      exact ⟨⟨⟨by omega, h2⟩, h3⟩, hr⟩
    · split
      · subst_vars; exact Memory.wfFrom_entry hlo ha hr
      · simp only [Memory.wfFrom, Bool.and_eq_true, decide_eq_true_eq]
        exact ⟨⟨⟨h1, h2⟩, h3⟩, ih hr (by omega)⟩

/-- A write inside the memory keeps the canonical form. -/
theorem Memory.wf_write {size a : Nat} {m : Memory w} {v : BitVec w} (h : m.wf size) (ha : a < size) :
    (m.write a v).wf size := Memory.wfFrom_write h (Nat.zero_le _) ha

/-- Read after write, in a canonical memory. -/
theorem Memory.read_write_of_wf {size : Nat} {m : Memory w} (h : m.wf size) (a b : Nat) (v : BitVec w) :
    (m.write a v).read b = if a = b then v else m.read b := Memory.read_write h a b v

theorem Memory.wfFrom_ofList {size : Nat} (a : Nat) (vs : List (BitVec w)) (h : a + vs.length ≤ size) :
    (Memory.ofList a vs).wfFrom size a := by
  induction vs generalizing a with
  | nil => rfl
  | cons v rest ih =>
    simp only [List.length_cons] at h
    exact Memory.wfFrom_entry (Nat.le_refl a) (by omega) (ih (a + 1) (by omega))

/-- The memory an initialiser builds is canonical. -/
theorem Memory.wf_ofList {size : Nat} (vs : List (BitVec w)) (h : vs.length ≤ size) :
    (Memory.ofList 0 vs).wf size := Memory.wfFrom_ofList 0 vs (by omega)

theorem Memory.read_ofList_of_lt (a b : Nat) (vs : List (BitVec w)) (h : b < a) :
    (Memory.ofList a vs).read b = unlisted w := by
  induction vs generalizing a with
  | nil => rfl
  | cons v rest ih =>
    rw [Memory.ofList, Memory.read_entry, ih (a + 1) (by omega)]
    split <;> [rfl; exact if_neg (by omega)]

/-- The memory built from a list of cells reads as that list, and 0 outside it. -/
theorem Memory.read_ofList (a b : Nat) (vs : List (BitVec w)) :
    (Memory.ofList a vs).read (a + b) = vs.getD b (unlisted w) := by
  induction vs generalizing a b with
  | nil => rfl
  | cons v rest ih =>
    rw [Memory.ofList, Memory.read_entry]
    cases b with
    | zero =>
      rw [Memory.read_ofList_of_lt (a + 1) (a + 0) rest (by omega)]
      split <;> simp_all
    | succ b =>
      have := ih (a + 1) b
      rw [show a + (b + 1) = a + 1 + b by omega, this]
      split
      · simp
      · rw [if_neg (by omega)]; simp

end Sys2Proof.Machine
end

