-- ==== Sys2Proof/Laws/Operands.lean ====
section
/-! SUPPORT. The narrowings, the IR fields and the jump addresses on natural numbers (spec R65, R66, R68, R177). -/

namespace Sys2Proof.Machine

theorem toNat_busLow (v : Word) : (busLow v).toNat = v.toNat % 256 := by
  rw [busLow, BitVec.extractLsb'_toNat]; rfl

/-- A jump address lands in 0..127 (R65). -/
theorem toNat_jumpTarget (a : BitVec 7) : (jumpTarget a).toNat = a.toNat := by
  simp [jumpTarget]; omega

theorem toNat_upcNext (s : State) : (upcNext s).toNat = (s.upc.toNat + 1) % 256 := by simp [upcNext]

theorem toNat_irOp (ir : Word) : (irOp ir).toNat = ir.toNat / 4096 := by
  have := ir.isLt
  rw [irOp, BitVec.extractLsb'_toNat, Nat.shiftRight_eq_div_pow, Nat.mod_eq_of_lt] <;> simp; omega

theorem irGrx_eq (ir : Word) : irGrx ir = BitVec.ofNat 2 (ir.toNat / 1024 % 4) := by
  apply BitVec.eq_of_toNat_eq; rw [irGrx, BitVec.extractLsb'_toNat, Nat.shiftRight_eq_div_pow]; simp

theorem irMode_eq (ir : Word) : irMode ir = BitVec.ofNat 2 (ir.toNat / 256 % 4) := by
  apply BitVec.eq_of_toNat_eq; rw [irMode, BitVec.extractLsb'_toNat, Nat.shiftRight_eq_div_pow]; simp

/-- IADR is what an 8-bit destination keeps of IR on the bus (R66). -/
theorem busLow_ir (ir : Word) : busLow ir = irAdr ir := rfl

end Sys2Proof.Machine
end

