-- ==== Sys2Proof/Laws/PerInstr.lean ====
section
/-! SUPPORT. Statements made per instruction. Family `RowOfWord`: an instruction is the row of its own field
group in the word it stands for, so no operand of any row is lost on the way to the word (spec R69). -/

namespace Sys2Proof.Laws.RowOfWord

/-- The instruction is recovered from its word and its field group. -/
def Statement (i : Instr) : Prop := i.micro.row i.group = i

theorem aluNop (x : AluCtx) : Statement (.aluNop x) := rfl
theorem aluLd (x : AluCtx) : Statement (.aluLd x) := rfl
theorem aluLdn (x : AluCtx) : Statement (.aluLdn x) := rfl
theorem aluClr (x : AluCtx) : Statement (.aluClr x) := rfl
theorem aluAdd (x : AluCtx) : Statement (.aluAdd x) := rfl
theorem aluAddk (x : AluCtx) : Statement (.aluAddk x) := rfl
theorem aluAnd (x : AluCtx) : Statement (.aluAnd x) := rfl
theorem aluOr (x : AluCtx) : Statement (.aluOr x) := rfl
theorem aluAddq (x : AluCtx) : Statement (.aluAddq x) := rfl
theorem aluLsl (x : AluCtx) : Statement (.aluLsl x) := rfl
theorem aluLsl32 (x : AluCtx) : Statement (.aluLsl32 x) := rfl
theorem aluAsr (x : AluCtx) : Statement (.aluAsr x) := rfl
theorem aluAsr32 (x : AluCtx) : Statement (.aluAsr32 x) := rfl
theorem aluLsr (x : AluCtx) : Statement (.aluLsr x) := rfl
theorem aluRol (x : AluCtx) : Statement (.aluRol x) := rfl
theorem aluRol32 (x : AluCtx) : Statement (.aluRol32 x) := rfl
theorem tbOnes (x : TbCtx) : Statement (.tbOnes x) := rfl
theorem tbIr (x : TbCtx) : Statement (.tbIr x) := rfl
theorem tbPm (x : TbCtx) : Statement (.tbPm x) := rfl
theorem tbPc (x : TbCtx) : Statement (.tbPc x) := rfl
theorem tbAr (x : TbCtx) : Statement (.tbAr x) := rfl
theorem tbHr (x : TbCtx) : Statement (.tbHr x) := rfl
theorem tbGr (x : TbCtx) : Statement (.tbGr x) := rfl
theorem tbLit (x : TbCtx) : Statement (.tbLit x) := rfl
theorem fbNone (x : FbCtx) : Statement (.fbNone x) := rfl
theorem fbIr (x : FbCtx) : Statement (.fbIr x) := rfl
theorem fbPm (x : FbCtx) : Statement (.fbPm x) := rfl
theorem fbPc (x : FbCtx) : Statement (.fbPc x) := rfl
theorem fbRsv (x : FbCtx) : Statement (.fbRsv x) := rfl
theorem fbHr (x : FbCtx) : Statement (.fbHr x) := rfl
theorem fbGr (x : FbCtx) : Statement (.fbGr x) := rfl
theorem fbAsr (x : FbCtx) : Statement (.fbAsr x) := rfl
theorem sGrx (x : SCtx) : Statement (.sGrx x) := rfl
theorem sM (x : SCtx) : Statement (.sM x) := rfl
theorem pHold (x : PCtx) : Statement (.pHold x) := rfl
theorem pInc (x : PCtx) : Statement (.pInc x) := rfl
theorem lcHold (x : LcCtx) : Statement (.lcHold x) := rfl
theorem lcDec (x : LcCtx) : Statement (.lcDec x) := rfl
theorem lcBus (x : LcCtx) : Statement (.lcBus x) := rfl
theorem lcImm (x : LcCtx) : Statement (.lcImm x) := rfl
theorem seqNext (x : SeqCtx) : Statement (.seqNext x) := rfl
theorem seqK1 (x : SeqCtx) : Statement (.seqK1 x) := rfl
theorem seqK2 (x : SeqCtx) : Statement (.seqK2 x) := rfl
theorem seqZero (x : SeqCtx) : Statement (.seqZero x) := rfl
theorem seqJnz (x : SeqCtx) : Statement (.seqJnz x) := rfl
theorem seqJmp (x : SeqCtx) : Statement (.seqJmp x) := rfl
theorem seqCall (x : SeqCtx) : Statement (.seqCall x) := rfl
theorem seqRet (x : SeqCtx) : Statement (.seqRet x) := rfl
theorem seqJz (x : SeqCtx) : Statement (.seqJz x) := rfl
theorem seqJn (x : SeqCtx) : Statement (.seqJn x) := rfl
theorem seqJc (x : SeqCtx) : Statement (.seqJc x) := rfl
theorem seqJo (x : SeqCtx) : Statement (.seqJo x) := rfl
theorem seqJl (x : SeqCtx) : Statement (.seqJl x) := rfl
theorem seqJnc (x : SeqCtx) : Statement (.seqJnc x) := rfl
theorem seqJno (x : SeqCtx) : Statement (.seqJno x) := rfl
theorem seqHalt (x : SeqCtx) : Statement (.seqHalt x) := rfl

end Sys2Proof.Laws.RowOfWord
end

