-- ==== Sys2Proof/Tests/Slice0.lean ====
section
/-! SUPPORT. Tests of single steps and decodings. Every expected value is the spec's: the vectors of
spec/95_test_vectors.md (named in each theorem), the rules' own examples, or a word written out bit by bit from
30_encoding.md R61. The last sections hold the well-formedness smoke test and, for each statement with
hypotheses, a witness that meets them together. -/

namespace Sys2Proof.Tests

open Sys2Proof.Machine Sys2Proof.Safety

/-! ## Helpers -/

/-- All registers, flags and memories zero, the start that the vectors mean by "all else zero". -/
def zero : State := { State.reset with l := false }

/-- Puts a word at the fetch address. -/
def withWord (w : Word32) (s : State) : State := { s with cs := [(s.upc.toNat, w)] }

/-- Reads something off the state after one step. -/
def after {α : Type} (w : Word32) (s : State) (f : State → α) : Option α :=
  match step (withWord w s) with
  | .next t => some (f t)
  | .fault _ => none
  | .refused _ => none

/-- One ALU vector: the code in a word with tb=GR, GR0 on the bus; AR, HR and Z N O C after the step. -/
def aluVector (code : Nat) (ar hr bus : Word) (z n o c : Bool) :
    Option (Word × Word × Bool × Bool × Bool × Bool) :=
  after (BitVec.ofNat 32 (code * 2 ^ 21 + 6 * 2 ^ 18))
    { zero with ar := ar, hr := hr, gr0 := bus, z := z, n := n, o := o, c := c }
    (fun t => (t.ar, t.hr, t.z, t.n, t.o, t.c))

/-! ## Decoding: words written out from R61, "xxxxxxx aaaa ttt fff s p ll qqqq jjjjjjj" -/

theorem test_decode_aluLd : decode 0b0000000_0001_000_110_1_0_00_0101_0101010#32 = .aluLd ⟨.ones, .gr, .m, .hold, .hold, .jmp, 0x2A#7⟩ := by decide
theorem test_decode_aluLdn : decode 0b0000000_0010_000_110_1_0_00_0101_0101010#32 = .aluLdn ⟨.ones, .gr, .m, .hold, .hold, .jmp, 0x2A#7⟩ := by decide
theorem test_decode_aluClr : decode 0b0000000_0011_000_110_1_0_00_0101_0101010#32 = .aluClr ⟨.ones, .gr, .m, .hold, .hold, .jmp, 0x2A#7⟩ := by decide
theorem test_decode_aluAdd : decode 0b0000000_0100_000_110_1_0_00_0101_0101010#32 = .aluAdd ⟨.ones, .gr, .m, .hold, .hold, .jmp, 0x2A#7⟩ := by decide
theorem test_decode_aluAddk : decode 0b0000000_0101_000_110_1_0_00_0101_0101010#32 = .aluAddk ⟨.ones, .gr, .m, .hold, .hold, .jmp, 0x2A#7⟩ := by decide
theorem test_decode_aluAnd : decode 0b0000000_0110_000_110_1_0_00_0101_0101010#32 = .aluAnd ⟨.ones, .gr, .m, .hold, .hold, .jmp, 0x2A#7⟩ := by decide
theorem test_decode_aluOr : decode 0b0000000_0111_000_110_1_0_00_0101_0101010#32 = .aluOr ⟨.ones, .gr, .m, .hold, .hold, .jmp, 0x2A#7⟩ := by decide
theorem test_decode_aluAddq : decode 0b0000000_1000_000_110_1_0_00_0101_0101010#32 = .aluAddq ⟨.ones, .gr, .m, .hold, .hold, .jmp, 0x2A#7⟩ := by decide
theorem test_decode_aluLsl : decode 0b0000000_1001_000_110_1_0_00_0101_0101010#32 = .aluLsl ⟨.ones, .gr, .m, .hold, .hold, .jmp, 0x2A#7⟩ := by decide
theorem test_decode_aluLsl32 : decode 0b0000000_1010_000_110_1_0_00_0101_0101010#32 = .aluLsl32 ⟨.ones, .gr, .m, .hold, .hold, .jmp, 0x2A#7⟩ := by decide
theorem test_decode_aluAsr : decode 0b0000000_1011_000_110_1_0_00_0101_0101010#32 = .aluAsr ⟨.ones, .gr, .m, .hold, .hold, .jmp, 0x2A#7⟩ := by decide
theorem test_decode_aluAsr32 : decode 0b0000000_1100_000_110_1_0_00_0101_0101010#32 = .aluAsr32 ⟨.ones, .gr, .m, .hold, .hold, .jmp, 0x2A#7⟩ := by decide
theorem test_decode_aluLsr : decode 0b0000000_1101_000_110_1_0_00_0101_0101010#32 = .aluLsr ⟨.ones, .gr, .m, .hold, .hold, .jmp, 0x2A#7⟩ := by decide
theorem test_decode_aluRol : decode 0b0000000_1110_000_110_1_0_00_0101_0101010#32 = .aluRol ⟨.ones, .gr, .m, .hold, .hold, .jmp, 0x2A#7⟩ := by decide
theorem test_decode_aluRol32 : decode 0b0000000_1111_000_110_1_0_00_0101_0101010#32 = .aluRol32 ⟨.ones, .gr, .m, .hold, .hold, .jmp, 0x2A#7⟩ := by decide
theorem test_decode_tbIr : decode 0b0000000_0000_001_110_1_0_00_0101_0101010#32 = .tbIr ⟨.nop, .gr, .m, .hold, .hold, .jmp, 0x2A#7⟩ := by decide
theorem test_decode_tbPm : decode 0b0000000_0000_010_110_1_0_00_0101_0101010#32 = .tbPm ⟨.nop, .gr, .m, .hold, .hold, .jmp, 0x2A#7⟩ := by decide
theorem test_decode_tbPc : decode 0b0000000_0000_011_110_1_0_00_0101_0101010#32 = .tbPc ⟨.nop, .gr, .m, .hold, .hold, .jmp, 0x2A#7⟩ := by decide
theorem test_decode_tbAr : decode 0b0000000_0000_100_110_1_0_00_0101_0101010#32 = .tbAr ⟨.nop, .gr, .m, .hold, .hold, .jmp, 0x2A#7⟩ := by decide
theorem test_decode_tbHr : decode 0b0000000_0000_101_110_1_0_00_0101_0101010#32 = .tbHr ⟨.nop, .gr, .m, .hold, .hold, .jmp, 0x2A#7⟩ := by decide
theorem test_decode_tbGr : decode 0b0000000_0000_110_110_1_0_00_0101_0101010#32 = .tbGr ⟨.nop, .gr, .m, .hold, .hold, .jmp, 0x2A#7⟩ := by decide
theorem test_decode_tbLit : decode 0b0000000_0000_111_110_1_0_00_0101_0101010#32 = .tbLit ⟨.nop, .gr, .m, .hold, .hold, .jmp, 0x2A#7⟩ := by decide
theorem test_decode_fbIr : decode 0b0000000_0000_000_001_1_0_00_0101_0101010#32 = .fbIr ⟨.nop, .ones, .m, .hold, .hold, .jmp, 0x2A#7⟩ := by decide
theorem test_decode_fbPm : decode 0b0000000_0000_000_010_1_0_00_0101_0101010#32 = .fbPm ⟨.nop, .ones, .m, .hold, .hold, .jmp, 0x2A#7⟩ := by decide
theorem test_decode_fbPc : decode 0b0000000_0000_000_011_1_0_00_0101_0101010#32 = .fbPc ⟨.nop, .ones, .m, .hold, .hold, .jmp, 0x2A#7⟩ := by decide
theorem test_decode_fbRsv : decode 0b0000000_0000_000_100_1_0_00_0101_0101010#32 = .fbRsv ⟨.nop, .ones, .m, .hold, .hold, .jmp, 0x2A#7⟩ := by decide
theorem test_decode_fbHr : decode 0b0000000_0000_000_101_1_0_00_0101_0101010#32 = .fbHr ⟨.nop, .ones, .m, .hold, .hold, .jmp, 0x2A#7⟩ := by decide
theorem test_decode_fbGr : decode 0b0000000_0000_000_110_1_0_00_0101_0101010#32 = .fbGr ⟨.nop, .ones, .m, .hold, .hold, .jmp, 0x2A#7⟩ := by decide
theorem test_decode_fbAsr : decode 0b0000000_0000_000_111_1_0_00_0101_0101010#32 = .fbAsr ⟨.nop, .ones, .m, .hold, .hold, .jmp, 0x2A#7⟩ := by decide
theorem test_decode_sM : decode 0b0000000_0000_000_000_1_0_00_0101_0101010#32 = .sM ⟨.nop, .ones, .none, .hold, .hold, .jmp, 0x2A#7⟩ := by decide
theorem test_decode_pInc : decode 0b0000000_0000_000_000_0_1_00_0101_0101010#32 = .pInc ⟨.nop, .ones, .none, .grx, .hold, .jmp, 0x2A#7⟩ := by decide
theorem test_decode_lcDec : decode 0b0000000_0000_000_000_0_0_01_0101_0101010#32 = .lcDec ⟨.nop, .ones, .none, .grx, .hold, .jmp, 0x2A#7⟩ := by decide
theorem test_decode_lcBus : decode 0b0000000_0000_000_000_0_0_10_0101_0101010#32 = .lcBus ⟨.nop, .ones, .none, .grx, .hold, .jmp, 0x2A#7⟩ := by decide
theorem test_decode_lcImm : decode 0b0000000_0000_000_000_0_0_11_0101_0101010#32 = .lcImm ⟨.nop, .ones, .none, .grx, .hold, .jmp, 0x2A#7⟩ := by decide
theorem test_decode_seqK1 : decode 0b0000000_0000_000_000_0_0_00_0001_0101010#32 = .seqK1 ⟨.nop, .ones, .none, .grx, .hold, .hold, 0x2A#7⟩ := by decide
theorem test_decode_seqK2 : decode 0b0000000_0000_000_000_0_0_00_0010_0101010#32 = .seqK2 ⟨.nop, .ones, .none, .grx, .hold, .hold, 0x2A#7⟩ := by decide
theorem test_decode_seqZero : decode 0b0000000_0000_000_000_0_0_00_0011_0101010#32 = .seqZero ⟨.nop, .ones, .none, .grx, .hold, .hold, 0x2A#7⟩ := by decide
theorem test_decode_seqJnz : decode 0b0000000_0000_000_000_0_0_00_0100_0101010#32 = .seqJnz ⟨.nop, .ones, .none, .grx, .hold, .hold, 0x2A#7⟩ := by decide
theorem test_decode_seqJmp : decode 0b0000000_0000_000_000_0_0_00_0101_0101010#32 = .seqJmp ⟨.nop, .ones, .none, .grx, .hold, .hold, 0x2A#7⟩ := by decide
theorem test_decode_seqCall : decode 0b0000000_0000_000_000_0_0_00_0110_0101010#32 = .seqCall ⟨.nop, .ones, .none, .grx, .hold, .hold, 0x2A#7⟩ := by decide
theorem test_decode_seqRet : decode 0b0000000_0000_000_000_0_0_00_0111_0101010#32 = .seqRet ⟨.nop, .ones, .none, .grx, .hold, .hold, 0x2A#7⟩ := by decide
theorem test_decode_seqJz : decode 0b0000000_0000_000_000_0_0_00_1000_0101010#32 = .seqJz ⟨.nop, .ones, .none, .grx, .hold, .hold, 0x2A#7⟩ := by decide
theorem test_decode_seqJn : decode 0b0000000_0000_000_000_0_0_00_1001_0101010#32 = .seqJn ⟨.nop, .ones, .none, .grx, .hold, .hold, 0x2A#7⟩ := by decide
theorem test_decode_seqJc : decode 0b0000000_0000_000_000_0_0_00_1010_0101010#32 = .seqJc ⟨.nop, .ones, .none, .grx, .hold, .hold, 0x2A#7⟩ := by decide
theorem test_decode_seqJo : decode 0b0000000_0000_000_000_0_0_00_1011_0101010#32 = .seqJo ⟨.nop, .ones, .none, .grx, .hold, .hold, 0x2A#7⟩ := by decide
theorem test_decode_seqJl : decode 0b0000000_0000_000_000_0_0_00_1100_0101010#32 = .seqJl ⟨.nop, .ones, .none, .grx, .hold, .hold, 0x2A#7⟩ := by decide
theorem test_decode_seqJnc : decode 0b0000000_0000_000_000_0_0_00_1101_0101010#32 = .seqJnc ⟨.nop, .ones, .none, .grx, .hold, .hold, 0x2A#7⟩ := by decide
theorem test_decode_seqJno : decode 0b0000000_0000_000_000_0_0_00_1110_0101010#32 = .seqJno ⟨.nop, .ones, .none, .grx, .hold, .hold, 0x2A#7⟩ := by decide
theorem test_decode_seqHalt : decode 0b0000000_0000_000_000_0_0_00_1111_0101010#32 = .seqHalt ⟨.nop, .ones, .none, .grx, .hold, .hold, 0x2A#7⟩ := by decide

/-- The word of zeros matches the zero row of every group, and is named by ALU.NOP. -/
theorem test_rows_of_zero_word :
    (decodeMicro 0b0000000_0000_000_000_0_0_00_0000_0000000#32).rows.map (fun i => i.tableRow.mnemonic) =
      ["ALU.NOP", "TB.ONES", "FB.NONE", "S.GRX", "P.HOLD", "LC.HOLD", "SEQ.NEXT"] := by decide

theorem test_decode_aluNop : decode 0b0000000_0000_000_000_0_0_00_0000_0000000#32 =
    .aluNop ⟨.ones, .none, .grx, .hold, .hold, .next, 0#7⟩ := by decide

theorem test_row_tbOnes : .tbOnes ⟨.add, .none, .grx, .hold, .hold, .next, 0x05#7⟩ ∈ (decodeMicro 0b0000000_0100_000_000_0_0_00_0000_0000101#32).rows := by decide
theorem test_row_fbNone : .fbNone ⟨.add, .ones, .grx, .hold, .hold, .next, 0x05#7⟩ ∈ (decodeMicro 0b0000000_0100_000_000_0_0_00_0000_0000101#32).rows := by decide
theorem test_row_sGrx : .sGrx ⟨.add, .ones, .none, .hold, .hold, .next, 0x05#7⟩ ∈ (decodeMicro 0b0000000_0100_000_000_0_0_00_0000_0000101#32).rows := by decide
theorem test_row_pHold : .pHold ⟨.add, .ones, .none, .grx, .hold, .next, 0x05#7⟩ ∈ (decodeMicro 0b0000000_0100_000_000_0_0_00_0000_0000101#32).rows := by decide
theorem test_row_lcHold : .lcHold ⟨.add, .ones, .none, .grx, .hold, .next, 0x05#7⟩ ∈ (decodeMicro 0b0000000_0100_000_000_0_0_00_0000_0000101#32).rows := by decide
theorem test_row_seqNext : .seqNext ⟨.add, .ones, .none, .grx, .hold, .hold, 0x05#7⟩ ∈ (decodeMicro 0b0000000_0100_000_000_0_0_00_0000_0000101#32).rows := by decide

/-- R72's example: `alu=ADD tb=GR lc=DEC` is 0x00980800. -/
theorem test_encode_example : encode (.aluAdd ⟨.gr, .none, .grx, .hold, .dec, .next, 0#7⟩) = 0x00980800#32 := by decide

/-- V-STEP-6: bits 31:25 are ignored. -/
theorem test_unused_bits : decode 0xFE380000#32 = decode 0x00380000#32 := by decide

theorem test_decodeTableWord : decodeTableWord 32 0x00080000 =
    some (.tbPm ⟨.nop, .none, .grx, .hold, .hold, .next, 0#7⟩) := by decide

/-! ## ALU rows (95_test_vectors.md 2.1) -/

theorem test_V_ALU_0a : aluVector 0 0x1234#16 0xABCD#16 0x00FF#16 true true true true =
    some (0x1234#16, 0xABCD#16, true, true, true, true) := by decide
theorem test_V_ALU_0b : aluVector 0 0x0000#16 0x0000#16 0xFFFF#16 false false false false =
    some (0x0000#16, 0x0000#16, false, false, false, false) := by decide
theorem test_V_ALU_1b : aluVector 1 0x1234#16 0x0000#16 0x0000#16 false false false false =
    some (0x0000#16, 0x0000#16, false, false, false, false) := by decide
theorem test_V_ALU_1c : aluVector 1 0x0000#16 0x0000#16 0x8000#16 true true true true =
    some (0x8000#16, 0x0000#16, true, true, true, true) := by decide
theorem test_V_ALU_2a : aluVector 2 0x0000#16 0x0000#16 0x00FF#16 false false false false =
    some (0xFF00#16, 0x0000#16, false, false, false, false) := by decide
theorem test_V_ALU_2b : aluVector 2 0x1234#16 0x0000#16 0xFFFF#16 false false false false =
    some (0x0000#16, 0x0000#16, false, false, false, false) := by decide
theorem test_V_ALU_3a : aluVector 3 0xBEEF#16 0x0000#16 0x1234#16 true true true true =
    some (0x0000#16, 0x0000#16, true, false, true, true) := by decide
theorem test_V_ALU_3c : aluVector 3 0xFFFF#16 0x0000#16 0x0000#16 false true false false =
    some (0x0000#16, 0x0000#16, true, false, false, false) := by decide
theorem test_V_ALU_4d : aluVector 4 0x7FFF#16 0x0000#16 0x0001#16 false false false false =
    some (0x8000#16, 0x0000#16, false, true, true, true) := by decide
theorem test_V_ALU_4h : aluVector 4 0x0080#16 0x0000#16 0xFF80#16 false false false false =
    some (0x0000#16, 0x0000#16, true, false, false, true) := by decide
theorem test_V_ALU_5a : aluVector 5 0x00C0#16 0x0000#16 0x0040#16 false false true false =
    some (0x0100#16, 0x0000#16, false, false, true, false) := by decide
theorem test_V_ALU_5d : aluVector 5 0x7FFF#16 0x0000#16 0x0001#16 false false false false =
    some (0x8000#16, 0x0000#16, false, true, false, true) := by decide
theorem test_V_ALU_6b : aluVector 6 0x0F0F#16 0x0000#16 0xF0F0#16 false false false false =
    some (0x0000#16, 0x0000#16, true, false, false, false) := by decide
theorem test_V_ALU_6c : aluVector 6 0xFFFF#16 0x0000#16 0x0001#16 true true true true =
    some (0x0001#16, 0x0000#16, false, false, true, true) := by decide
theorem test_V_ALU_7a : aluVector 7 0x8000#16 0x0000#16 0x0001#16 false false false false =
    some (0x8001#16, 0x0000#16, false, true, false, false) := by decide
theorem test_V_ALU_7c : aluVector 7 0x00F0#16 0x0000#16 0xFFFF#16 false false false false =
    some (0xFFFF#16, 0x0000#16, false, true, false, false) := by decide
theorem test_V_ALU_8a : aluVector 8 0xFFFF#16 0x0000#16 0x0001#16 false false false false =
    some (0x0000#16, 0x0000#16, false, false, false, false) := by decide
theorem test_V_ALU_8b : aluVector 8 0x00C0#16 0x0000#16 0x0040#16 true true true true =
    some (0x0100#16, 0x0000#16, true, true, true, true) := by decide
theorem test_V_ALU_9a : aluVector 9 0x00FF#16 0x0000#16 0x0000#16 false false false false =
    some (0x01FE#16, 0x0000#16, false, false, false, true) := by decide
theorem test_V_ALU_9b : aluVector 9 0x8000#16 0x0000#16 0x0000#16 false false false false =
    some (0x0000#16, 0x0000#16, true, false, false, false) := by decide
theorem test_V_ALU_10f : aluVector 10 0x0000#16 0x8000#16 0x0000#16 false false false false =
    some (0x0001#16, 0x0000#16, false, false, false, false) := by decide
theorem test_V_ALU_10g : aluVector 10 0x0000#16 0x4000#16 0x0000#16 false false false false =
    some (0x0000#16, 0x8000#16, false, false, false, false) := by decide
theorem test_V_ALU_11a : aluVector 11 0x8001#16 0x0000#16 0x0000#16 false false false false =
    some (0xC000#16, 0x0000#16, false, true, false, true) := by decide
theorem test_V_ALU_11d : aluVector 11 0xFFFF#16 0x0000#16 0x0000#16 false false false false =
    some (0xFFFF#16, 0x0000#16, false, true, false, true) := by decide
theorem test_V_ALU_12a : aluVector 12 0x8001#16 0x0001#16 0x0000#16 false false false false =
    some (0xC000#16, 0x8000#16, false, true, false, true) := by decide
theorem test_V_ALU_12b : aluVector 12 0x0001#16 0x0000#16 0x0000#16 false false false false =
    some (0x0000#16, 0x8000#16, true, false, false, false) := by decide
theorem test_V_ALU_13a : aluVector 13 0x8001#16 0x0000#16 0x0000#16 false false false false =
    some (0x4000#16, 0x0000#16, false, false, false, true) := by decide
theorem test_V_ALU_13b : aluVector 13 0x0001#16 0x0000#16 0x0000#16 false false false false =
    some (0x0000#16, 0x0000#16, true, false, false, true) := by decide
theorem test_V_ALU_14a : aluVector 14 0x8000#16 0x0000#16 0x0000#16 false false false false =
    some (0x0001#16, 0x0000#16, false, false, false, false) := by decide
theorem test_V_ALU_14b : aluVector 14 0x0080#16 0x0000#16 0x0000#16 false false false false =
    some (0x0100#16, 0x0000#16, false, false, false, true) := by decide
theorem test_V_ALU_15a : aluVector 15 0x8000#16 0x0001#16 0x0000#16 false false false false =
    some (0x0003#16, 0x0001#16, false, false, false, true) := by decide
theorem test_V_ALU_15c : aluVector 15 0x1234#16 0x4000#16 0x0000#16 false false false false =
    some (0x8000#16, 0x4000#16, false, true, false, false) := by decide

/-! ## Whole steps (95_test_vectors.md 2.2) -/

theorem test_V_STEP_1 : after 0x003C1234#32 zero (fun t => (t.ar, t.upc, t.cycleCount)) =
    some (0x1234#16, 0#8, 1) := by decide
theorem test_V_STEP_2 : after 0x003C0000#32 zero (fun t => t.l) = some false := by decide
theorem test_V_STEP_3 : after 0x00FCFFFF#32
    { zero with upc := 2#8, usp := 7#8, pc := 5#8, asr := 3#8, ar := 0x00F0#16, hr := 0x0F0F#16, ir := 0x0400#16,
                gr0 := 1#16, gr1 := 2#16, gr2 := 3#16, gr3 := 4#16, lc := 9#8 }
    (fun t => (t.ar, t.upc, t.pc, t.gr3, t.lc)) =
    some (0xFFFF#16, 2#8, 5#8, 4#16, 9#8) := by decide
theorem test_V_STEP_5 : after 0x00600780#32 { zero with upc := 5#8, ar := 7#16 }
    (fun t => (t.ar, t.z, t.l, t.upc, t.halted, t.cycleCount)) =
    some (0#16, true, true, 0#8, true, 1) := by decide
theorem test_V_STEP_7 : after 0x00088080#32
    { zero with asr := 4#8, ir := 0x1000#16, pm := [(4, 0x2000#16)], k1 := [(1, 0x11#8), (2, 0x22#8)] }
    (fun t => (t.upc, t.ir)) = some (0x11#8, 0x2000#16) := by decide
theorem test_V_STEP_8 : after 0x00980410#32 { zero with ar := 0xFFFF#16, gr0 := 1#16 }
    (fun t => (t.upc, t.ar, t.z, t.o)) = some (1#8, 0#16, true, true) := by decide
/-- Under the other flag view the same word jumps (V-STEP-8's note). -/
theorem test_V_STEP_8_post : (microCycleWith .post (decodeMicro 0x00980410#32)
    { zero with ar := 0xFFFF#16, gr0 := 1#16 }).upc = 0x10#8 := by decide
theorem test_V_STEP_9 : after 0x015A8000#32 { zero with ar := 1#16, hr := 0x8000#16, gr0 := 0x5555#16 }
    (fun t => (t.ar, t.hr, t.c, t.z, t.l)) = some (3#16, 0x5555#16, false, false, true) := by decide
theorem test_V_STEP_10 : after 0#32 { zero with upc := 0x7F#8 } (fun t => t.upc) = some 0x80#8 := by decide
theorem test_V_STEP_10_fault : (match step { zero with upc := 0x80#8 } with
    | .fault r => some r | .next _ => none | .refused _ => none) = some (.upcOutOfRange 0x80#8) := by decide
theorem test_V_STEP_12 : after 0x00000E09#32 { zero with lc := 1#8 } (fun t => (t.upc, t.lc, t.l)) =
    some (1#8, 0#8, true) := by decide

/-! ## Bus sources (2.3) -/

theorem test_V_TB_0 : after 0x00219000#32 zero (fun t => (t.ar, t.pc, t.lc, t.l)) =
    some (0xFFFF#16, 0xFF#8, 0xFF#8, false) := by decide
theorem test_V_TB_1 : after 0x00078000#32 { zero with ir := 0x0820#16 } (fun t => t.asr) = some 0x20#8 := by decide
theorem test_V_TB_2 : after 0x000B8000#32 { zero with asr := 0x10#8, pm := [(0x10, 0xAB42#16)] }
    (fun t => t.asr) = some 0x42#8 := by decide
theorem test_V_TB_3 : after 0x000FA000#32 { zero with pc := 0x11#8 } (fun t => (t.pc, t.asr)) =
    some (0x12#8, 0x11#8) := by decide
theorem test_V_TB_4 : after 0x00930000#32 { zero with ar := 3#16 } (fun t => (t.ar, t.gr0)) =
    some (6#16, 3#16) := by decide
theorem test_V_TB_5 : after 0x00174000#32 { zero with hr := 0x8000#16, ir := 0x0700#16 }
    (fun t => (t.gr0, t.gr3)) = some (0#16, 0x8000#16) := by decide
theorem test_V_TB_6 : after 0x00980000#32 { zero with ar := 0xA#16, gr0 := 5#16 } (fun t => t.ar) =
    some 0xF#16 := by decide
theorem test_V_TB_7 : after 0x009C0010#32 { zero with ar := 0x00F0#16 } (fun t => (t.ar, t.o, t.upc)) =
    some (0x0100#16, true, 0#8) := by decide

/-! ## Bus destinations (2.4) -/

theorem test_V_FB_0 : after 0x00100000#32 { zero with asr := 0x55#8, ar := 0x1234#16 } (fun t => t.asr) =
    some 0x55#8 := by decide
theorem test_V_FB_1 : after 0x0008A000#32 { zero with pm := [(0, 0x0820#16)] } (fun t => (t.ir, t.pc)) =
    some (0x0820#16, 1#8) := by decide
theorem test_V_FB_2 : after 0x00110000#32 { zero with asr := 0x20#8, ar := 0xBEEF#16, pm := [(0xEF, 0x77#16)] }
    (fun t => t.pm) = some [(0x20, 0xBEEF#16), (0xEF, 0x77#16)] := by decide
theorem test_V_FB_3 : after 0x00118000#32 { zero with pc := 0x10#8, ar := 0x12AB#16 } (fun t => t.pc) =
    some 0xAB#8 := by decide
theorem test_V_FB_4 : after 0x00120000#32 { zero with asr := 0x55#8, ar := 0x1234#16 } (fun t => t.asr) =
    some 0x55#8 := by decide
theorem test_V_FB_5 : after 0x00128000#32 { zero with ar := 0xA5A5#16 } (fun t => t.hr) = some 0xA5A5#16 := by decide
theorem test_V_FB_6 : after 0x00130000#32 { zero with ar := 0xCAFE#16, ir := 0x0B00#16 }
    (fun t => (t.gr2, t.gr3)) = some (0xCAFE#16, 0#16) := by decide
theorem test_V_FB_7 : after 0x000F8000#32 { zero with pc := 0x11#8 } (fun t => t.asr) = some 0x11#8 := by decide

/-! ## Register select (R88, R89: IR = 0x0B00 sees GR2 with S = 0, GR3 with S = 1) -/

theorem test_V_FB_6_read_s0 : after 0x00380000#32 { zero with gr2 := 0xCAFE#16, ir := 0x0B00#16 }
    (fun t => t.ar) = some 0xCAFE#16 := by decide
theorem test_V_FB_6_read_s1 : after 0x00384000#32 { zero with ar := 1#16, gr2 := 0xCAFE#16, ir := 0x0B00#16 }
    (fun t => t.ar) = some 0#16 := by decide

/-! ## PC and loop counter (2.5) -/

theorem test_V_PC_1 : after 0x0011A000#32 { zero with pc := 0x10#8, ar := 0xAB#16 } (fun t => t.pc) =
    some 0x11#8 := by decide
theorem test_V_PC_2 : after 0x00002000#32 { zero with pc := 0xFF#8 } (fun t => t.pc) = some 0#8 := by decide
theorem test_V_PC_3 : after 0#32 { zero with pc := 0x10#8 } (fun t => t.pc) = some 0x10#8 := by decide
theorem test_V_LC_1 : after 0x00000A80#32 { zero with lc := 1#8 } (fun t => (t.lc, t.l)) =
    some (0#8, true) := by decide
theorem test_V_LC_1_wrap : after 0x00000A80#32 { zero with l := true } (fun t => (t.lc, t.l, t.upc)) =
    some (0xFF#8, false, 0#8) := by decide
theorem test_V_LC_2 : after 0x00101000#32 { zero with ar := 0x12AB#16 } (fun t => t.lc) = some 0xAB#8 := by decide
theorem test_V_LC_3 : after 0x00001803#32 zero (fun t => (t.lc, t.upc)) = some (3#8, 1#8) := by decide
theorem test_V_LC_4 : after 0x000018FF#32 zero (fun t => (t.lc, t.upc)) = some (0xFF#8, 0#8) := by decide
theorem test_V_LC_5 : after 0#32 zero (fun t => (t.lc, t.l)) = some (0#8, true) := by decide

/-! ## Sequencer (2.6) -/

theorem test_V_SEQ_0 : after 0#32 { zero with upc := 4#8, lc := 1#8 } (fun t => t.upc) = some 5#8 := by decide
theorem test_V_SEQ_1 : after 0x00000080#32 { zero with ir := 0xA7C3#16, k1 := [(10, 0x45#8)] }
    (fun t => t.upc) = some 0x45#8 := by decide
theorem test_V_SEQ_1_k2 : after 0x00000100#32 { zero with ir := 0xA7C3#16, k2 := [(3, 0x12#8)] }
    (fun t => t.upc) = some 0x12#8 := by decide
theorem test_V_SEQ_3 : after 0x00000180#32 { zero with upc := 4#8 } (fun t => t.upc) = some 0#8 := by decide
theorem test_V_SEQ_5 : after 0x00000281#32 { zero with upc := 3#8 } (fun t => t.upc) = some 1#8 := by decide
theorem test_V_SEQ_6 : after 0x00000320#32 { zero with upc := 3#8 } (fun t => (t.upc, t.usp)) =
    some (0x20#8, 3#8) := by decide
theorem test_V_SEQ_6_ret : after 0x00000380#32 { zero with upc := 0x20#8, usp := 3#8 }
    (fun t => (t.upc, t.usp)) = some (3#8, 3#8) := by decide
theorem test_V_SEQ_15 : after 0x00000780#32 { zero with upc := 9#8, lc := 1#8 } (fun t => (t.upc, t.halted)) =
    some (0#8, true) := by decide

/-- The two flag states of the conditional-jump table. -/
def clearFlags : State := { zero with upc := 2#8, lc := 1#8 }
def setFlags : State := { zero with upc := 2#8, z := true, n := true, o := true, c := true, l := true }

theorem test_V_SEQ_4 : after 0x00000210#32 clearFlags (fun t => t.upc) = some 0x10#8 ∧
    after 0x00000210#32 setFlags (fun t => t.upc) = some 0x03#8 := by decide
theorem test_V_SEQ_8 : after 0x00000410#32 clearFlags (fun t => t.upc) = some 0x03#8 ∧
    after 0x00000410#32 setFlags (fun t => t.upc) = some 0x10#8 := by decide
theorem test_V_SEQ_9 : after 0x00000490#32 clearFlags (fun t => t.upc) = some 0x03#8 ∧
    after 0x00000490#32 setFlags (fun t => t.upc) = some 0x10#8 := by decide
theorem test_V_SEQ_10 : after 0x00000510#32 clearFlags (fun t => t.upc) = some 0x03#8 ∧
    after 0x00000510#32 setFlags (fun t => t.upc) = some 0x10#8 := by decide
theorem test_V_SEQ_11 : after 0x00000590#32 clearFlags (fun t => t.upc) = some 0x03#8 ∧
    after 0x00000590#32 setFlags (fun t => t.upc) = some 0x10#8 := by decide
theorem test_V_SEQ_12 : after 0x00000610#32 clearFlags (fun t => t.upc) = some 0x03#8 ∧
    after 0x00000610#32 setFlags (fun t => t.upc) = some 0x10#8 := by decide
theorem test_V_SEQ_13 : after 0x00000690#32 clearFlags (fun t => t.upc) = some 0x10#8 ∧
    after 0x00000690#32 setFlags (fun t => t.upc) = some 0x03#8 := by decide
theorem test_V_SEQ_14 : after 0x00000710#32 clearFlags (fun t => t.upc) = some 0x10#8 ∧
    after 0x00000710#32 setFlags (fun t => t.upc) = some 0x03#8 := by decide

/-! ## Well-formedness: one ill-formed term for each group's check -/

theorem smoke_aluNop_with_other_field : (Instr.aluNop ⟨.pm, .none, .grx, .hold, .hold, .next, 0#7⟩).wellFormed = false := by decide
theorem smoke_tb_after_alu : (Instr.tbPm ⟨.add, .none, .grx, .hold, .hold, .next, 0#7⟩).wellFormed = false := by decide
theorem smoke_tbOnes : (Instr.tbOnes ⟨.nop, .none, .grx, .hold, .hold, .next, 0#7⟩).wellFormed = false := by decide
theorem smoke_fb_after_tb : (Instr.fbGr ⟨.nop, .pm, .grx, .hold, .hold, .next, 0#7⟩).wellFormed = false := by decide
theorem smoke_s_after_fb : (Instr.sM ⟨.nop, .ones, .gr, .hold, .hold, .next, 0#7⟩).wellFormed = false := by decide
theorem smoke_p_after_s : (Instr.pInc ⟨.nop, .ones, .none, .m, .hold, .next, 0#7⟩).wellFormed = false := by decide
theorem smoke_lc_after_p : (Instr.lcDec ⟨.nop, .ones, .none, .grx, .inc, .next, 0#7⟩).wellFormed = false := by decide
theorem smoke_seq_after_lc : (Instr.seqJmp ⟨.nop, .ones, .none, .grx, .hold, .dec, 0#7⟩).wellFormed = false := by decide
theorem smoke_good : (Instr.seqJmp ⟨.nop, .ones, .none, .grx, .hold, .hold, 0x7F#7⟩).wellFormed = true := by decide

/-! ## Witnesses for the statements' hypotheses -/

/-- A literal context and a normal one of each kind that statements take as `x.tb ≠ .lit`. -/
def fbX : FbCtx := ⟨.lsl32, .pm, .m, .inc, .imm, .halt, 0x7F#7⟩
def seqX : SeqCtx := ⟨.add, .gr, .gr, .m, .inc, .dec, 0x7F#7⟩
def busy : State := { zero with upc := 0x7F#8, asr := 0xFF#8, pc := 0xFF#8, ir := 0xFFFF#16, ar := 0x8001#16, usp := 0x7F#8,
                                pm := [(0xFF, 0x1234#16)], k1 := [(15, 0xFF#8)], k2 := [(3, 0x80#8)], lc := 1#8 }

theorem witness_DecodeEncodeIsIdentity :
    (Instr.aluNop ⟨.ones, .none, .grx, .hold, .hold, .next, 0x7F#7⟩).wellFormed = true ∧
    (Instr.aluRol32 ⟨.lit, .asr, .m, .inc, .imm, .halt, 0x7F#7⟩).wellFormed = true ∧
    (Instr.sM ⟨.nop, .ones, .none, .inc, .imm, .halt, 0x7F#7⟩).wellFormed = true := by decide

theorem witness_UnusedBitsIgnored :
    (0xFE380000#32).extractLsb' 0 25 = (0x00380000#32).extractLsb' 0 25 ∧ (0xFE380000#32) ≠ 0x00380000#32 := by decide

theorem witness_RowsExecuteAlike :
    (.aluAdd ⟨.gr, .none, .grx, .hold, .dec, .next, 0#7⟩ : Instr) ∈ (decodeMicro 0x00980800#32).rows ∧
    (.lcDec ⟨.add, .gr, .none, .grx, .hold, .next, 0#7⟩ : Instr) ∈ (decodeMicro 0x00980800#32).rows := by decide

theorem witness_StepRunsDecodedInstruction : busy.halted = false ∧ busy.upc.toNat ≤ 127 := by decide

theorem witness_HaltedStepIsNoOp : ({ busy with halted := true, upc := 0xFF#8 } : State).halted = true := by decide

theorem witness_OutOfRangeUpcFaults :
    ({ zero with upc := 0x80#8 } : State).halted = false ∧ 127 < ({ zero with upc := 0x80#8 } : State).upc.toNat := by decide

/-- Both clauses of the "exactly when": a state that steps at the edge, and one that does not. -/
theorem witness_StepIsTotalInRange :
    (match step busy with | .next _ => true | .fault _ => false | .refused _ => false) = true ∧
    (match step { busy with upc := 0x80#8 } with | .next _ => true | .fault _ => false | .refused _ => false) = false := by decide

theorem witness_FetchWordRunsNext : busy.memoryWf = true ∧ 0xFFFFFFFF < 2 ^ 32 ∧ busy.upc.toNat ≤ 127 ∧
    (busy.withFetchWord 32 0xFFFFFFFF).cs.read 0x7F = 0xFFFFFFFF#32 ∧
    127 < ({ busy with upc := 0x80#8, halted := true } : State).upc.toNat ∧
    (State.withFetchWord { busy with upc := 0x80#8, halted := true } 32 1).upc = 0#8 := by decide

theorem witness_TbPmSource : busy.memoryWf = true ∧ busy.pm.read busy.asr.toNat = 0x1234#16 ∧
    (⟨.lsl32, .asr, .m, .inc, .bus, .next, 0#7⟩ : TbCtx).fb = .asr ∧
    (⟨.nop, .pm, .grx, .hold, .hold, .next, 0#7⟩ : TbCtx).fb = .pm := by decide

theorem witness_TbPcSource : (⟨.nop, .asr, .grx, .inc, .hold, .next, 0#7⟩ : TbCtx).fb = .asr ∧
    (⟨.nop, .asr, .grx, .inc, .hold, .next, 0#7⟩ : TbCtx).p = .inc ∧ busy.pc = 0xFF#8 := by decide

/-- Each clause of `BusReaches` has a word that meets its condition. -/
theorem witness_BusReaches :
    after 0x0004C000#32 { busy with upc := 0#8 } (fun t => t.ir) = some 0xFFFF#16 ∧
    after 0x00110000#32 { busy with upc := 0#8 } (fun t => t.pm.read 0xFF) = some 0x8001#16 ∧
    after 0x00118000#32 busy (fun t => t.pc) = some 0x01#8 ∧
    after 0x00128000#32 busy (fun t => t.hr) = some 0x8001#16 ∧
    after 0x00130000#32 busy (fun t => t.gr3) = some 0x8001#16 ∧
    after 0x00138000#32 busy (fun t => t.asr) = some 0x01#8 ∧
    after 0x00101000#32 busy (fun t => t.lc) = some 0x01#8 := by decide

theorem witness_LiteralModeSkipsStages :
    (Instr.tbLit ⟨.lsl32, .asr, .m, .inc, .imm, .halt, 0x7F#7⟩).micro.tb = .lit ∧
    (Instr.seqHalt ⟨.ld, .lit, .asr, .m, .inc, .imm, 0x7F#7⟩).micro.tb = .lit ∧
    (Instr.seqHalt ⟨.ld, .lit, .asr, .m, .inc, .imm, 0x7F#7⟩).micro.alu ≠ .lsl32 := by decide

theorem witness_RegisterSelectRows :
    (⟨.ld, .gr, .gr, .hold, .hold, .next, 0#7⟩ : SCtx).tb ≠ .lit ∧
    (⟨.ld, .gr, .gr, .hold, .hold, .next, 0#7⟩ : SCtx).tb = .gr ∧
    (⟨.ld, .gr, .gr, .hold, .hold, .next, 0#7⟩ : SCtx).fb = .gr ∧
    BitVec.ofNat 2 (busy.ir.toNat / 1024 % 4) = 3#2 ∧ (0#2 ≠ 3#2) := by decide

theorem witness_PcControlRows : (⟨.nop, .ar, .pc, .grx, .hold, .next, 0#7⟩ : PCtx).tb ≠ .lit ∧
    (⟨.nop, .ar, .pc, .grx, .hold, .next, 0#7⟩ : PCtx).fb = .pc ∧
    (⟨.nop, .ar, .none, .grx, .hold, .next, 0#7⟩ : PCtx).fb ≠ .pc := by decide

theorem witness_LoopCounterRows : (⟨.nop, .ar, .pc, .grx, .hold, .k1, 0x7F#7⟩ : LcCtx).tb ≠ .lit := by decide

/-- FB rows: a context outside literal mode, on a canonical memory, with another word reading back. -/
theorem witness_FbRows : fbX.tb ≠ .lit ∧ busy.memoryWf = true ∧ fbX.p = .inc ∧ fbX.alu = .lsl32 ∧
    (⟨.ld, .none, .m, .hold, .hold, .next, 0#7⟩ : TbCtx).s = fbX.s ∧ (0#2 ≠ selIndex fbX.s busy) ∧
    (0 ≠ busy.asr.toNat) ∧ ({ fbX with seq := .k1 } : FbCtx).tb ≠ .lit ∧ ({ fbX with seq := .k2 } : FbCtx).tb ≠ .lit := by decide

/-- The clauses about every instruction with another FB code. -/
theorem witness_FbOtherCodes : (Instr.fbRsv fbX).micro.fb ≠ .asr ∧ (Instr.fbAsr fbX).micro.fb ≠ .pm ∧
    (match exec (.fbRsv fbX) busy with | .next t => t.asr == 0xFF#8 | .fault _ => false | .refused _ => false) = true ∧
    (match exec (.fbAsr fbX) busy with | .next t => t.asr == 0x34#8 | .fault _ => false | .refused _ => false) = true := by decide

/-- Each clause of `OtherTargetsKept`: a word with another destination and neither second writer. -/
theorem witness_OtherTargetsKept : (⟨.ld, .pm, .none, .grx, .hold, .hold, .next, 0#7⟩ : Micro).fb ≠ .pc ∧
    (⟨.ld, .pm, .none, .grx, .hold, .hold, .next, 0#7⟩ : Micro).p = .hold ∧
    (⟨.ld, .pm, .none, .grx, .hold, .hold, .next, 0#7⟩ : Micro).alu ≠ .lsl32 := by decide

theorem witness_SeqRows : seqX.tb ≠ .lit ∧ seqX.lc ≠ .imm ∧ ({ seqX with lc := .imm } : SeqCtx).tb ≠ .lit ∧ busy.upc = 0x7F#8 ∧
    busy.k1.read (busy.ir.toNat / 4096) = 0xFF#8 ∧ busy.k2.read (busy.ir.toNat / 256 % 4) = 0x80#8 := by decide

/-- The frames' hypothesis: an instruction that answers a next state. -/
theorem witness_Frames :
    (match exec (.fbGr fbX) busy with | .next t => t.gr3 == 0x1234#16 && t.gr0 == 0#16 | .fault _ => false | .refused _ => false) = true ∧
    (match exec (.fbPm { fbX with tb := .ar }) busy with
      | .next t => t.pm.read 0xFF == 0x8001#16 && t.pm.read 0xFE == 0#16 | .fault _ => false | .refused _ => false) = true ∧
    (match exec (.aluNop ⟨.lit, .asr, .m, .inc, .imm, .halt, 0x7F#7⟩) busy with
      | .next t => t.ar == busy.ar && t.l == busy.l && t.upc == busy.upc | .fault _ => false | .refused _ => false) = true := by decide

theorem witness_StepKeepsInvariant : Inv busy ∧
    (match step busy with | .next t => t.upc == 0x80#8 | .fault _ => false | .refused _ => false) = true := by decide

/-- A control store that keeps the loader's contract: JMP 0 in its last cell, table entries at the edge. -/
def contractState : State :=
  { zero with upc := 0x7F#8, usp := 0x7F#8, cs := [(127, 0x00000280#32)], k1 := [(0, 0x7F#8)], k2 := [(3, 0x7F#8)] }

theorem witness_LoaderContractRunsWithoutFault : LoaderContract contractState := by
  refine ⟨by decide, by decide, by decide, by decide, ?_⟩
  exact .inr (.inr (.inr (.inr (.inl (by decide)))))

def stalled : State := withWord 0x009CFFFF#32 busy

theorem witness_LiteralWordStallsForever : stalled.halted = false ∧ stalled.upc.toNat ≤ 127 ∧
    (decodeMicro (fetchWord stalled)).tb = .lit := by decide

def calling (second : Word32) : State := { zero with upc := 3#8, lc := 1#8, cs := [(3, 0x00000320#32), (0x20, second)] }

/-- The hypotheses of the two clauses, met by the words of V-SEQ-6 and V-SEQ-6n. -/
def callMeets (second : Word32) (code : SeqCode) : Bool :=
  let s := calling second
  let m := decodeMicro (fetchWord s)
  let r := decodeMicro (s.cs.read m.adr.toNat)
  !s.halted && upcInRange s && m.tb != .lit && m.seq == .call && r.tb != .lit && r.seq == code

theorem witness_CallThenReturnLandsOnCall : callMeets 0x00000380#32 .ret = true := by decide
theorem witness_CallThenReturnLandsOnCall_nested : callMeets 0x00000330#32 .call = true := by decide

theorem witness_AluCodeReachesOnlyAluResults :
    (Instr.aluAdd ⟨.lit, .hr, .m, .inc, .imm, .halt, 0x7F#7⟩).micro =
      { (Instr.tbLit ⟨.lsl32, .hr, .m, .inc, .imm, .halt, 0x7F#7⟩).micro with
        alu := (Instr.aluAdd ⟨.lit, .hr, .m, .inc, .imm, .halt, 0x7F#7⟩).micro.alu } := by decide

/-- A word that tests Z beside a code that leaves Z, and one that tests O beside a code that writes all but O. -/
theorem witness_FlagViewsAgree :
    ((⟨.addq, .ar, .none, .grx, .hold, .hold, .jz, 5#7⟩ : Micro).alu = .addq) ∧
    ((⟨.clr, .ar, .none, .grx, .hold, .hold, .jc, 5#7⟩ : Micro).alu = .clr) ∧
    ((⟨.addk, .ar, .none, .grx, .hold, .hold, .jo, 5#7⟩ : Micro).alu ≠ .add) := by decide

theorem witness_HostActions : busy.memoryWf = true ∧ (1#8 ≠ 0xFF#8) ∧
    (match hostAct (.writePm 0xFF#8 0#16) busy with | .next t => t.pm == [] | .fault _ => false | .refused _ => false) = true := by decide

end Sys2Proof.Tests
end

section
/-! PROOFS. The run of a core against its step, and the halted core (spec/40_cycle_decode.md R83). -/

namespace Sys2Proof.Machine

/-- A run whose first step answers a state continues from that state. -/
theorem run_succ_of_step_next {M : Host.Core} {s t : M.State} (h : M.step s = .next t) (k : Nat) :
    M.run (k + 1) s = M.run k t := by
  rw [Host.Core.run, h]

/-- A state that a step leaves as it is, is where every run from it ends. -/
theorem run_of_step_fixed {M : Host.Core} {s : M.State} (h : M.step s = .next s) (k : Nat) :
    M.run k s = .next s := by
  induction k with
  | zero => rfl
  | succ k ih => rw [run_succ_of_step_next h, ih]

/-- The `halted` check comes before every other (R83, R194). -/
theorem step_of_halted {s : State} (h : s.halted = true) : step s = .next s :=
  if_pos h

/-- Settles O10: a halted state is a fixed point of the step, and so of every run. -/
theorem haltedStepIsNoOp : Obligations.HaltedStepIsNoOp := by
  intro s k h
  have hstep : step s = .next s := step_of_halted h
  exact ⟨hstep, run_of_step_fixed (M := Sys2Proof.core) hstep k⟩

end Sys2Proof.Machine
end

section
/-! PROOFS. The bus sources (spec/41_bus_source.md R100 to R105, R107): outside literal mode the one bus value
of the cycle reaches every consumer; in literal mode it reaches the ALU alone. -/

namespace Sys2Proof.Machine

open Sys2Proof.Safety

/-! ## The consumers of the bus (R108) -/

/-- The value TB selects is the one the ALU, the FB destination and LC control 2 use, under either flag view. -/
theorem normalPath_busReaches (view : FlagView) (m : Micro) (s : State) :
    BusReaches m (busSource m s) s (normalPath view m s) := by
  refine ⟨⟨normalPath_ar .., normalPath_z .., normalPath_n .., normalPath_o .., normalPath_c ..⟩,
    ?ir, ?pm, ?pc, ?hr, ?gr, ?asr, ?lc⟩
  case ir => intro hfb; rw [normalPath_ir, if_pos hfb]
  case pm => intro hfb; rw [normalPath_pm, if_pos hfb]
  case pc => intro hfb hp; rw [normalPath_pc, if_neg (by simp [hp]), if_pos hfb, toNat_busLow]
  case hr => intro hfb _ _; rw [normalPath_hr, if_pos hfb]
  case gr => intro hfb; rw [readGr_normalPath, if_pos ⟨hfb, rfl⟩]
  case asr => intro hfb; rw [normalPath_asr, if_pos hfb, toNat_busLow]
  case lc => intro hlc; rw [normalPath_lc, lcNext, hlc]; exact toNat_busLow _

/-- An instruction outside literal mode answers its normal path (R91). -/
theorem exec_of_normal {i : Instr} (s : State) (h : i.micro.tb ≠ .lit) :
    exec i s = .next (normalPath .pre i.micro s) := by
  rw [exec_eq_microCycle, microCycle_normal _ _ h]

/-- An instruction in literal mode answers its literal path (R90). -/
theorem exec_of_lit {i : Instr} (s : State) (h : i.micro.tb = .lit) :
    exec i s = .next (literalPath i.micro s) := by
  rw [exec_eq_microCycle, microCycle_lit _ _ h]

/-- Outside literal mode an instruction answers a state in which its bus value has reached every consumer. -/
theorem exec_busReaches (i : Instr) (s : State) (h : i.micro.tb ≠ .lit) :
    ∃ t, exec i s = .next t ∧ BusReaches i.micro (busSource i.micro s) s t :=
  ⟨_, exec_of_normal s h, normalPath_busReaches .pre i.micro s⟩

/-- Settles O30: each of the four rows puts its own source, read before the cycle, on the bus. -/
theorem tbConstantAndRegisterSources : Obligations.TbConstantAndRegisterSources := by
  intro x s
  exact ⟨exec_busReaches (.tbOnes x) s nofun, exec_busReaches (.tbIr x) s nofun,
    exec_busReaches (.tbAr x) s nofun, exec_busReaches (.tbHr x) s nofun⟩

/-! ## Program memory (R102) -/

/-- Program memory is canonical when all four memories are. -/
theorem State.pm_wf {s : State} (h : s.memoryWf = true) : s.pm.wf pmSize = true := by
  simp only [State.memoryWf, Bool.and_eq_true] at h
  obtain ⟨⟨⟨hpm, -⟩, -⟩, -⟩ := h
  exact hpm

/-- A cell written with what it holds leaves every cell as it reads (R44, R45). -/
theorem Memory.read_write_read {w size : Nat} {m : Memory w} (h : m.wf size) (a b : Nat) :
    (m.write a (m.read a)).read b = m.read b := by
  rw [Memory.read_write_of_wf h]
  split
  · subst_vars; rfl
  · rfl

/-- Settles O31: the read is at the old ASR, so FB = 7 follows the pointer and FB = 2 writes back to the cell
the value just read from it. -/
theorem tbPmSource : Obligations.TbPmSource := by
  intro x s hwf
  obtain ⟨t, hexec, hbus⟩ := exec_busReaches (.tbPm x) s nofun
  have ⟨_, _, hpm, _, _, _, hasr, _⟩ := hbus
  refine ⟨t, hexec, hbus, hasr, fun hfb a => ?_⟩
  rw [hpm hfb]
  exact Memory.read_write_read (State.pm_wf hwf) s.asr.toNat a

/-! ## The program counter (R103) -/

/-- TB = 3 zero-extends PC. -/
theorem busPc_eq_ofNat (s : State) : busPc s = BitVec.ofNat 16 s.pc.toNat :=
  (BitVec.ofNat_toNat 16 s.pc).symm

/-- An 8-bit destination of TB = 3 takes PC whole (R68, R103). -/
theorem busLow_busPc (s : State) : busLow (busPc s) = s.pc := by
  apply BitVec.eq_of_toNat_eq
  rw [toNat_busLow, busPc, BitVec.toNat_setWidth]
  have := s.pc.isLt
  omega

/-- Settles O32: the bus and the increment both read the PC from before the cycle (R82). -/
theorem tbPcSource : Obligations.TbPcSource := by
  intro x s
  refine ⟨_, exec_of_normal (i := .tbPc x) s nofun, ?bus, ?asr, ?pc⟩
  case bus => rw [← busPc_eq_ofNat]; exact normalPath_busReaches .pre (x.word .pc) s
  case asr => intro hfb; exact (normalPath_asr ..).trans ((if_pos hfb).trans (busLow_busPc s))
  case pc =>
    intro hp
    have hpc : (normalPath .pre (x.word .pc) s).pc = s.pc + 1#8 := (normalPath_pc ..).trans (if_pos hp)
    exact (congrArg BitVec.toNat hpc).trans (BitVec.toNat_add s.pc 1#8)

/-! ## Literal mode (R107) -/

/-- The literal path leaves all but AR, HR, Z, N, O, C and the cycle counter as they were (R90). -/
theorem literalPath_onlyAluChanged (m : Micro) (s : State) : OnlyAluChanged s (literalPath m s) :=
  ⟨rfl, rfl, ⟨rfl, rfl, rfl, rfl⟩, rfl, rfl, rfl, rfl, rfl, rfl, rfl, rfl, rfl, rfl⟩

/-- Under TB = 7 the ALU works on the low 16 bits of the instruction's own word (R63, R107). -/
theorem aluStage_lit (x : TbCtx) (s : State) :
    aluStage (x.word .lit) s = alu x.alu ((encode (.tbLit x)).extractLsb' 0 16) (aluRegs s) := rfl

/-- Settles O34: the literal path installs the ALU stage of the word's own low 16 bits and skips the rest. -/
theorem tbLitSource : Obligations.TbLitSource := by
  intro x s
  obtain ⟨hpc, hasr, hgr, hir, hupc, husp, hlc, -, hhalted, hpm, -⟩ :=
    literalPath_onlyAluChanged (x.word .lit) s
  refine ⟨_, exec_of_lit (i := .tbLit x) s rfl, ?alu, hpc, hasr, hgr, hir, hpm, hlc, hupc, husp, hhalted⟩
  case alu =>
    simp only [← aluStage_lit]
    exact ⟨literalPath_ar .., literalPath_hr .., literalPath_z .., literalPath_n .., literalPath_o ..,
      literalPath_c ..⟩

end Sys2Proof.Machine
end

section
/-! PROOFS. On which fields of the word and of the state each stage of a micro-cycle depends (spec/40_cycle_decode.md
R82, R91, R93), and the frames of the write-back stage (spec/42_writeback_control.md R110 to R126). -/

namespace Sys2Proof.Machine

open Sys2Proof.Safety

/-! ## What a stage reads of the word -/

/-- The register-select index comes from S and IR alone (R87). -/
theorem selIndex_congr (code : SCode) {s t : State} (hir : s.ir = t.ir) : selIndex code s = selIndex code t := by
  cases code <;> simp only [selIndex, selGrx, selM, hir]

/-- Outside literal mode the bus value depends on the word through TB and S alone (R100 to R106). -/
theorem busSource_congr {m m' : Micro} (s : State) (hlit : m.tb ≠ .lit) (htb : m'.tb = m.tb) (hs : m'.s = m.s) :
    busSource m' s = busSource m s := by
  cases h : m.tb with
  | lit => exact absurd h hlit
  | ones | ir | pm | pc | ar | hr | gr => simp [busSource, busGr, htb, hs, h]

/-- The ALU stage depends on the word through the ALU code and the bus value (R80). -/
theorem aluStage_congr {m m' : Micro} {s : State} (halu : m'.alu = m.alu) (hbus : busSource m' s = busSource m s) :
    aluStage m' s = aluStage m s := by
  rw [aluStage, aluStage, halu, hbus]

/-- The new uPC of a normal cycle depends on the word through SEQ, ADR and the ALU's flags (R160, R178). -/
theorem upcAfter_congr (view : FlagView) {m m' : Micro} {s : State} (hseq : m'.seq = m.seq) (hadr : m'.adr = m.adr)
    (halu : aluStage m' s = aluStage m s) : upcAfter view m' s = upcAfter view m s := by
  rw [upcAfter, upcAfter, halu, sequencer, sequencer, hseq, hadr]

/-! ## The normal path, field by field -/

/-- A K1 dispatch takes the OP field of the IR from before the cycle (R112, R162). -/
theorem normalPath_upc_of_k1 (view : FlagView) {m : Micro} (s : State) (h : m.seq = .k1) :
    (normalPath view m s).upc = readK1 (irOp s.ir) s := by
  rw [normalPath_upc, upcAfter, sequencer, h]; rfl

/-- A K2 dispatch takes the M field of the IR from before the cycle (R112, R163). -/
theorem normalPath_upc_of_k2 (view : FlagView) {m : Micro} (s : State) (h : m.seq = .k2) :
    (normalPath view m s).upc = readK2 (irMode s.ir) s := by
  rw [normalPath_upc, upcAfter, sequencer, h]; rfl

/-- P = 1 gives the PC from before the cycle plus 1 modulo 256 (R119, R120). -/
theorem toNat_normalPath_pc_of_inc (view : FlagView) {m : Micro} (s : State) (h : m.p = .inc) :
    (normalPath view m s).pc.toNat = (s.pc.toNat + 1) % 256 := by
  rw [normalPath_pc, if_pos h]; exact BitVec.toNat_add s.pc 1#8

/-- P = 0 leaves PC to FB = 3 (R114, R126). -/
theorem toNat_normalPath_pc_of_hold (view : FlagView) {m : Micro} (s : State) (h : m.p = .hold) :
    (normalPath view m s).pc.toNat = if m.fb = .pc then (busSource m s).toNat % 256 else s.pc.toNat := by
  rw [normalPath_pc, if_neg (by simp [h])]
  split
  · exact toNat_busLow _
  · rfl

/-- L follows the new LC in every normal cycle (R125). -/
theorem normalPath_l_iff (view : FlagView) (m : Micro) (s : State) :
    (normalPath view m s).l = true ↔ (normalPath view m s).lc.toNat = 0 := by
  rw [normalPath_l, normalPath_lc, flagL, beq_iff_eq, ← BitVec.toNat_inj]; rfl

/-- Two words that differ in LC control alone leave the same state but for LC and L (R91, R124). -/
theorem normalPath_with_lc (view : FlagView) (m : Micro) (code : LcCode) (s : State) (hlit : m.tb ≠ .lit) :
    let t := normalPath view { m with lc := code } s
    t = { normalPath view m s with lc := t.lc, l := t.l } := by
  have hbus : busSource { m with lc := code } s = busSource m s := busSource_congr s hlit rfl rfl
  have halu : aluStage { m with lc := code } s = aluStage m s := aluStage_congr rfl hbus
  have hupc : upcAfter view { m with lc := code } s = upcAfter view m s := upcAfter_congr view rfl rfl halu
  apply State.eq_of_fields <;> simp [hbus, halu, hupc]

/-- A word with the reserved FB code 4 leaves the state that it leaves with FB = 0 (R115). -/
theorem normalPath_fbRsv_eq_fbNone (view : FlagView) (m : Micro) (s : State) (hlit : m.tb ≠ .lit) :
    normalPath view { m with fb := .rsv } s = normalPath view { m with fb := .none } s := by
  have hbus : busSource { m with fb := .rsv } s = busSource { m with fb := .none } s := busSource_congr s hlit rfl rfl
  have halu : aluStage { m with fb := .rsv } s = aluStage { m with fb := .none } s := aluStage_congr rfl hbus
  have hupc : upcAfter view { m with fb := .rsv } s = upcAfter view { m with fb := .none } s :=
    upcAfter_congr view rfl rfl halu
  have hlc (bus : Word) : lcNext { m with fb := .rsv } bus s = lcNext { m with fb := .none } bus s :=
    lcNext_congr bus s rfl (imm8_congr rfl rfl)
  apply State.eq_of_fields <;> simp [hbus, halu, hupc, hlc]

/-! ## Frames -/

/-- The normal path writes no bus destination but the one FB selects, PC and HR apart from their second writer
(R91, R110). -/
theorem normalPath_otherTargetsKept (view : FlagView) (m : Micro) (s : State) :
    OtherTargetsKept m s (normalPath view m s) := by
  refine ⟨?ir, ?pm, ?pc, ?hr, ?gr, ?asr⟩
  case ir => intro hfb; rw [normalPath_ir, if_neg hfb]
  case pm => intro hfb; rw [normalPath_pm, if_neg hfb]
  case pc => intro hfb hp; rw [normalPath_pc, if_neg (by simp [hp]), if_neg hfb]
  case hr =>
    intro hfb h10 h12
    rw [normalPath_hr, if_neg hfb]
    exact alu_hr _ _ _ h10 h12
  case gr => intro hfb; simp [GrKept, hfb]
  case asr => intro hfb; rw [normalPath_asr, if_neg hfb]

/-- ASR has one writer, FB = 7, in both modes (R118). -/
theorem microCycle_asr_of_fb_ne {m : Micro} (s : State) (h : m.fb ≠ .asr) : (microCycle m s).asr = s.asr := by
  obtain ⟨-, hpath⟩ | ⟨-, hpath⟩ := microCycle_cases m s
  · rw [hpath, literalPath_asr]
  · rw [hpath, normalPath_asr, if_neg h]

/-- Program memory has one writer, FB = 2, in both modes (R113). -/
theorem microCycle_pm_of_fb_ne {m : Micro} (s : State) (h : m.fb ≠ .pm) : (microCycle m s).pm = s.pm := by
  obtain ⟨-, hpath⟩ | ⟨-, hpath⟩ := microCycle_cases m s
  · rw [hpath, literalPath_pm]
  · rw [hpath, normalPath_pm, if_neg h]

/-- The state an instruction answers is that of its word's micro-cycle. -/
theorem eq_microCycle_of_exec {i : Instr} {s t : State} (h : exec i s = .next t) : t = microCycle i.micro s := by
  rw [exec_eq_microCycle] at h
  injection h with h
  exact h.symm

end Sys2Proof.Machine
end

section
/-! PROOFS. The rows of P, LC and FB outside literal mode (spec/42_writeback_control.md R111 to R126). -/

namespace Sys2Proof.Machine

open Sys2Proof.Safety

/-- Settles O37: the increment lands over the FB write, and without it FB = 3 is the one writer of PC. -/
theorem pcControlRows : Obligations.PcControlRows := by
  intro x s hlit
  exact ⟨⟨_, exec_of_normal (i := .pInc x) s hlit, toNat_normalPath_pc_of_inc .pre s rfl⟩,
    ⟨_, exec_of_normal (i := .pHold x) s hlit, toNat_normalPath_pc_of_hold .pre s rfl⟩⟩

/-- Settles O38: each row's new LC is its own case of `lcNext`, and L is computed from it. -/
theorem loopCounterRows : Obligations.LoopCounterRows := by
  intro x s hlit
  refine ⟨⟨_, exec_of_normal (i := .lcHold x) s hlit, ?hold, normalPath_l_iff ..⟩,
    ⟨_, exec_of_normal (i := .lcDec x) s hlit, ?dec, normalPath_l_iff ..⟩,
    ⟨_, exec_of_normal (i := .lcBus x) s hlit, ?bus, normalPath_l_iff ..⟩,
    ⟨_, exec_of_normal (i := .lcImm x) s hlit, ?imm, normalPath_l_iff ..,
      _, exec_of_normal (i := .lcHold x) s hlit, normalPath_with_lc .pre (x.word .hold) .imm s hlit⟩⟩
  case hold => rw [normalPath_lc]; rfl
  case dec =>
    rw [normalPath_lc]
    exact (BitVec.toNat_sub s.lc 1#8).trans (congrArg (· % 256) (Nat.add_comm _ _))
  case bus => rw [normalPath_lc]; exact toNat_busLow _
  case imm => rw [normalPath_lc]; rfl

/-- Settles O39: neither code writes a destination, and their words differ in nothing any stage reads. -/
theorem fbNoOpRows : Obligations.FbNoOpRows := by
  intro x s hlit
  refine ⟨⟨_, exec_of_normal (i := .fbNone x) s hlit, ?none, normalPath_otherTargetsKept ..⟩,
    ⟨_, exec_of_normal (i := .fbRsv x) s hlit, ?rsv, normalPath_otherTargetsKept .., ?alike⟩⟩
  case none => exact (normalPath_asr ..).trans (if_neg nofun)
  case rsv => exact (normalPath_asr ..).trans (if_neg nofun)
  case alike =>
    rw [exec_of_normal (i := .fbNone x) s hlit]
    exact congrArg _ (normalPath_fbRsv_eq_fbNone .pre (x.word .none) s hlit).symm

/-- Settles O40: the dispatch reads the IR from before the write, and ASR has the one writer. -/
theorem fbIrAndAsrRows : Obligations.FbIrAndAsrRows := by
  intro x s hlit
  have ⟨_, hir, _⟩ := normalPath_busReaches .pre (x.word .ir) s
  have ⟨_, _, _, _, _, _, hasr, _⟩ := normalPath_busReaches .pre (x.word .asr) s
  refine ⟨⟨_, exec_of_normal (i := .fbIr x) s hlit, hir rfl, normalPath_otherTargetsKept ..,
      normalPath_upc_of_k1 .pre (m := x.word .ir) s, normalPath_upc_of_k2 .pre (m := x.word .ir) s⟩,
    ⟨_, exec_of_normal (i := .fbAsr x) s hlit, hasr rfl, normalPath_otherTargetsKept ..⟩, ?other⟩
  case other =>
    intro i t hfb hexec
    rw [eq_microCycle_of_exec hexec]
    exact microCycle_asr_of_fb_ne s hfb

/-- Settles O41, by the two values of P. -/
theorem fbPcRow : Obligations.FbPcRow := by
  intro x s hlit
  refine ⟨_, exec_of_normal (i := .fbPc x) s hlit, ?pc, normalPath_otherTargetsKept ..⟩
  cases hp : x.p with
  | inc => rw [if_pos rfl]; exact toNat_normalPath_pc_of_inc .pre s hp
  | hold =>
    rw [if_neg nofun]
    exact (toNat_normalPath_pc_of_hold .pre s hp).trans (if_pos rfl)

/-- TB.GR with LD answers a state whose AR is the register that S selects in the present IR (R106, R132). -/
theorem exec_tbGr_ld (y : TbCtx) (t : State) (h : y.alu = .ld) :
    ∃ u, exec (.tbGr y) t = .next u ∧ u.ar = readGr (selIndex y.s t) t := by
  refine ⟨_, exec_of_normal (i := .tbGr y) t nofun, (normalPath_ar ..).trans ?_⟩
  change (alu y.alu (readGr (selIndex y.s t) t) (aluRegs t)).ar = _
  rw [h]; rfl

/-- Settles O43: IR is not written, so the same S selects the register just written. -/
theorem fbGrRowAndReadBack : Obligations.FbGrRowAndReadBack := by
  intro x s hlit
  have hread (j) : readGr j (normalPath .pre (x.word .gr) s) =
      if j = selIndex x.s s then busSource (x.word .gr) s else readGr j s :=
    (readGr_normalPath ..).trans (by simp [FbCtx.word])
  have hkept : OtherTargetsKept (x.word .gr) s (normalPath .pre (x.word .gr) s) := normalPath_otherTargetsKept ..
  have ⟨hir, _⟩ := hkept
  refine ⟨_, exec_of_normal (i := .fbGr x) s hlit, (hread _).trans (if_pos rfl),
    fun j hj => (hread j).trans (if_neg hj), hkept, ?readBack⟩
  intro y hs hld
  obtain ⟨u, hexec, har⟩ := exec_tbGr_ld y (normalPath .pre (x.word .gr) s) hld
  refine ⟨u, hexec, har.trans ?_⟩
  rw [hread, hs, selIndex_congr x.s (hir nofun), if_pos rfl]

/-- Settles O44: the write lands at the ASR from before the cycle, in a canonical memory, and PM has no other
writer. -/
theorem fbPmRow : Obligations.FbPmRow := by
  intro x s hlit hwf
  have hread (a) : (normalPath .pre (x.word .pm) s).pm.read a =
      if s.asr.toNat = a then busSource (x.word .pm) s else s.pm.read a := by
    rw [normalPath_pm, if_pos (show (x.word .pm).fb = .pm from rfl), Memory.read_write_of_wf (State.pm_wf hwf)]
  refine ⟨_, exec_of_normal (i := .fbPm x) s hlit, (hread _).trans (if_pos rfl),
    fun a ha => (hread a).trans (if_neg ha.symm), normalPath_otherTargetsKept .., ?other⟩
  case other =>
    intro i u hfb hexec
    rw [eq_microCycle_of_exec hexec]
    exact microCycle_pm_of_fb_ne s hfb

end Sys2Proof.Machine
end

section
/-! PROOFS. The ALU rows that move, combine and shift AR alone (spec/43_alu.md R131 to R134, R137 to R139, R142, R144,
R145), each for every other field of its word, literal mode included. -/

namespace Sys2Proof.Machine

open Sys2Proof.Safety

/-! ## What a cycle installs of the ALU stage (R80, R116) -/

/-- In both modes a cycle leaves the ALU stage's own outputs, HR apart where FB = 5 takes it. -/
theorem microCycle_aluResult (m : Micro) (s : State) :
    AluResult m (microCycle m s) (aluStage m s).ar.toNat (aluStage m s).hr.toNat ((aluStage m s).z = true)
      ((aluStage m s).n = true) ((aluStage m s).o = true) ((aluStage m s).c = true) := by
  obtain ⟨-, hpath⟩ | ⟨hlit, hpath⟩ := microCycle_cases m s
  · rw [hpath]
    exact ⟨rfl, .rfl, .rfl, .rfl, .rfl, fun _ => rfl⟩
  · rw [hpath]
    refine ⟨?ar, ?z, ?n, ?o, ?c, ?hr⟩
    case ar => rw [normalPath_ar]
    case z => rw [normalPath_z]
    case n => rw [normalPath_n]
    case o => rw [normalPath_o]
    case c => rw [normalPath_c]
    case hr => intro h; rw [normalPath_hr, if_neg (h.resolve_left hlit)]

/-- A code that gives AR the value `r` and nothing else leaves HR and the four flags (R22 to R25). -/
theorem microCycle_aluResult_of_ar {m : Micro} {s : State} {r : Word}
    (h : aluStage m s = { aluRegs s with ar := r }) :
    AluResult m (microCycle m s) r.toNat s.hr.toNat (s.z = true) (s.n = true) (s.o = true) (s.c = true) := by
  have hres := microCycle_aluResult m s
  rw [h] at hres
  exact hres

/-- A code that gives AR the value `r` with Z and N of it, and C the value `b`, leaves HR and O (R24, R148). -/
theorem microCycle_aluResult_of_withZN {m : Micro} {s : State} {r : Word} {b : Bool}
    (h : aluStage m s = withC b (withZN r (aluRegs s))) :
    AluResult m (microCycle m s) r.toNat s.hr.toNat (r.toNat = 0) (bitOf r.toNat 15 = 1) (s.o = true)
      (b = true) := by
  have hres := microCycle_aluResult m s
  rw [h] at hres
  rw [← flagZ_iff, ← flagN_iff]
  exact hres

/-! ## No flag: NOP, LD, LDN, ADDQ -/

/-- The complement of a word, by exclusive or with all ones (R133). -/
theorem toNat_xor_ones (v : Word) : (v ^^^ 0xFFFF#16).toNat = 65535 - v.toNat := by
  rw [show 0xFFFF#16 = BitVec.allOnes 16 from rfl, BitVec.xor_allOnes, BitVec.toNat_not]

/-- Settles O17: the three codes give AR its old value, the bus value and its complement. -/
theorem aluMoveResults : Obligations.AluMoveResults := by
  intro x s
  refine ⟨⟨_, exec_eq_microCycle .., microCycle_aluResult_of_ar rfl⟩,
    ⟨_, exec_eq_microCycle .., microCycle_aluResult_of_ar rfl⟩, ⟨_, exec_eq_microCycle .., ?ldn⟩⟩
  case ldn => rw [← toNat_xor_ones]; exact microCycle_aluResult_of_ar rfl

/-- Settles O22: ADDQ gives AR the sum of two words, and the sum of words is modulo 65536. -/
theorem aluAddqResult : Obligations.AluAddqResult := by
  intro x s
  refine ⟨_, exec_eq_microCycle .., ?_⟩
  rw [← BitVec.toNat_add]
  exact microCycle_aluResult_of_ar rfl

/-! ## Z and N alone: CLR, AND, OR -/

/-- Settles O18: CLR is the result 0 with its own Z and N. -/
theorem aluClrResult : Obligations.AluClrResult := by
  intro x s
  have hres : AluResult (x.word .clr) (microCycle (x.word .clr) s) 0 s.hr.toNat (0 = 0) (bitOf 0 15 = 1)
      (s.o = true) (s.c = true) := microCycle_aluResult_of_withZN (r := 0#16) rfl
  have hbit : ¬ bitOf 0 15 = 1 := by decide
  rw [eq_self, eq_false hbit] at hres
  exact ⟨_, exec_eq_microCycle .., hres⟩

/-- A code that gives AR the value `r` with Z and N of it leaves HR, O and C: the result in terms of the new AR. -/
theorem microCycle_ar_and_aluResult {m : Micro} {s : State} {r : Word}
    (h : aluStage m s = withZN r (aluRegs s)) :
    (microCycle m s).ar = r ∧
      AluResult m (microCycle m s) (microCycle m s).ar.toNat s.hr.toNat ((microCycle m s).ar.toNat = 0)
        (bitOf (microCycle m s).ar.toNat 15 = 1) (s.o = true) (s.c = true) := by
  have hres := microCycle_aluResult_of_withZN (b := s.c) h
  have ⟨htoNat, _⟩ := hres
  have har : (microCycle m s).ar = r := BitVec.eq_of_toNat_eq htoNat
  rw [har]
  exact ⟨rfl, hres⟩

/-- Settles O21: the result is the model's bitwise operation, read off bit by bit. -/
theorem aluLogicResults : Obligations.AluLogicResults := by
  intro x s
  have ⟨hand, handRes⟩ := microCycle_ar_and_aluResult (m := x.word .and) (s := s)
    (r := s.ar &&& busSource (x.word .and) s) rfl
  have ⟨hor, horRes⟩ := microCycle_ar_and_aluResult (m := x.word .or) (s := s)
    (r := s.ar ||| busSource (x.word .or) s) rfl
  refine ⟨⟨microCycle (x.word .and) s, exec_eq_microCycle (.aluAnd x) s, fun k _ => ?and, handRes⟩,
    ⟨microCycle (x.word .or) s, exec_eq_microCycle (.aluOr x) s, fun k _ => ?or, horRes⟩⟩
  case and => rw [hand, BitVec.getLsbD_and, Bool.and_eq_true]
  case or => rw [hor, BitVec.getLsbD_or, Bool.or_eq_true]

/-! ## Z, N and C: ASR, LSR, ROL -/

/-- Settles O25: the model's shift keeps bit 15. -/
theorem aluAsrResult : Obligations.AluAsrResult := by
  intro x s r
  refine ⟨_, exec_eq_microCycle .., ?_⟩
  rw [← flagCBit0_iff, show r = (s.ar.sshiftRight 1).toNat from (toNat_sshiftRight16 s.ar).symm]
  exact microCycle_aluResult_of_withZN rfl

/-- Settles O27: a word halved is below 32768, so its bit 15 is clear. -/
theorem aluLsrResult : Obligations.AluLsrResult := by
  intro x s r
  have hr : r = (s.ar >>> 1).toNat := by rw [BitVec.toNat_ushiftRight, Nat.shiftRight_one]
  have hbit : ¬ bitOf r 15 = 1 := by have := s.ar.isLt; unfold bitOf; omega
  refine ⟨_, exec_eq_microCycle .., ?_⟩
  rw [← flagCBit0_iff, ← eq_false hbit, hr]
  exact microCycle_aluResult_of_withZN rfl

/-- Settles O28: the rotation takes bit 15 round to bit 0, and C is the old bit 7, not the one that wraps. -/
theorem aluRolResult : Obligations.AluRolResult := by
  intro x s r
  refine ⟨_, exec_eq_microCycle .., ?_⟩
  rw [← flagCLeft_iff, show r = (s.ar.rotateLeft 1).toNat from (toNat_rotateLeft16 s.ar).symm]
  exact microCycle_aluResult_of_withZN rfl

end Sys2Proof.Machine
end

section
/-! PROOFS. The unconditional rows of the sequencer outside literal mode (spec/44_sequencer.md R164, R166 to R168). -/

namespace Sys2Proof.Machine

open Sys2Proof.Safety

/-! ## The next address of each code (R164, R166 to R168, R178) -/

/-- ZERO goes to address 0 (R164). -/
theorem toNat_upcAfter_of_zero (view : FlagView) {m : Micro} (s : State) (h : m.seq = .zero) :
    (upcAfter view m s).toNat = 0 := by
  rw [upcAfter, sequencer, h]; rfl

/-- JMP and CALL go to ADR, under no condition (R166, R167). -/
theorem toNat_upcAfter_of_jmp_or_call (view : FlagView) {m : Micro} (s : State) (h : m.seq = .jmp ∨ m.seq = .call) :
    (upcAfter view m s).toNat = m.adr.toNat := by
  obtain h | h := h
  all_goals rw [upcAfter, sequencer, h]; exact toNat_jumpTarget m.adr

/-- RET goes to the uSP from before the cycle (R168). -/
theorem upcAfter_of_ret (view : FlagView) {m : Micro} (s : State) (h : m.seq = .ret) :
    upcAfter view m s = s.usp := by
  rw [upcAfter, sequencer, h]; rfl

/-! ## What a normal cycle leaves in uPC, uSP and the halt latch -/

/-- CALL saves the address of its own word, goes where `upcAfter` says and leaves the halt latch (R167). -/
theorem normalPath_seqResult_of_call (view : FlagView) {m : Micro} {s : State} (h : m.seq = .call) :
    SeqResult (normalPath view m s) (upcAfter view m s).toNat s.upc s.halted := by
  refine ⟨by rw [normalPath_upc], ?usp, ?halted⟩
  case usp => rw [normalPath_usp, if_pos h]
  case halted => rw [normalPath_halted, if_neg (by simp [h])]

/-- Every code but CALL leaves uSP, and every code but HALT leaves the halt latch (R167, R176). -/
theorem normalPath_seqResult (view : FlagView) {m : Micro} {s : State} (hcall : m.seq ≠ .call) (hhalt : m.seq ≠ .halt) :
    SeqResult (normalPath view m s) (upcAfter view m s).toNat s.usp s.halted := by
  refine ⟨by rw [normalPath_upc], ?usp, ?halted⟩
  case usp => rw [normalPath_usp, if_neg hcall]
  case halted => rw [normalPath_halted, if_neg hhalt]

/-! ## The rows -/

/-- Settles O47: neither code writes uSP or the latch, and a 7-bit ADR is below 128. -/
theorem seqZeroAndJmpRows : Obligations.SeqZeroAndJmpRows := by
  intro x s hlit
  have hzero : SeqResult (normalPath .pre (x.word .zero) s) 0 s.usp s.halted :=
    toNat_upcAfter_of_zero .pre (m := x.word .zero) s rfl ▸ normalPath_seqResult .pre nofun nofun
  have hjmp : SeqResult (normalPath .pre (x.word .jmp) s) x.adr.toNat s.usp s.halted :=
    toNat_upcAfter_of_jmp_or_call .pre (m := x.word .jmp) s (.inl rfl) ▸ normalPath_seqResult .pre nofun nofun
  have ⟨htarget, _⟩ := hjmp
  exact ⟨⟨_, exec_of_normal (i := .seqZero x) s hlit, hzero⟩,
    ⟨_, exec_of_normal (i := .seqJmp x) s hlit, hjmp, htarget.trans_le (Nat.le_of_lt_succ x.adr.isLt)⟩⟩

/-- Settles O48: CALL is the one writer of uSP, with the uPC from before the cycle, and RET reads it back. -/
theorem seqCallAndRetRows : Obligations.SeqCallAndRetRows := by
  intro x s hlit
  have hcall : SeqResult (normalPath .pre (x.word .call) s) x.adr.toNat s.upc s.halted :=
    toNat_upcAfter_of_jmp_or_call .pre (m := x.word .call) s (.inr rfl) ▸ normalPath_seqResult_of_call .pre rfl
  have hret : SeqResult (normalPath .pre (x.word .ret) s) s.usp.toNat s.usp s.halted :=
    upcAfter_of_ret .pre (m := x.word .ret) s rfl ▸ normalPath_seqResult .pre nofun nofun
  exact ⟨⟨_, exec_of_normal (i := .seqCall x) s hlit, hcall⟩, ⟨_, exec_of_normal (i := .seqRet x) s hlit, hret⟩⟩

end Sys2Proof.Machine
end

section
/-! PROOFS. Decoding and encoding (spec/30_encoding.md R60 to R72): `decodeMicro` and `encodeMicro` are inverse on
microinstructions and on the 25 used bits of a word, and a row's mask selects its own field. -/

namespace Sys2Proof

/-! ## Decode and encode -/

/-- Slicing an encoded word gives its fields back (R61, R72). -/
@[simp] theorem decodeMicro_encodeMicro (m : Micro) : decodeMicro (encodeMicro m) = m := by
  rw [decodeMicro, encodeMicro_alu, encodeMicro_tb, encodeMicro_fb, encodeMicro_s, encodeMicro_p, encodeMicro_lc,
    encodeMicro_seq, encodeMicro_adr]
  simp only [AluCode.ofBits_bits, TbCode.ofBits_bits, FbCode.ofBits_bits, SCode.ofBits_bits, PCode.ofBits_bits,
    LcCode.ofBits_bits, SeqCode.ofBits_bits]

/-- Packing the slices of a word keeps its bits 24:0 and clears bits 31:25 (R61, R67). -/
theorem encodeMicro_decodeMicro (w : Word32) : encodeMicro (decodeMicro w) = w &&& 0x01FFFFFF#32 := by
  apply BitVec.eq_of_getLsbD_eq; intro k hk
  rw [encodeMicro_getLsbD, BitVec.getLsbD_and]
  simp only [decodeMicro, AluCode.bits_ofBits, TbCode.bits_ofBits, FbCode.bits_ofBits, SCode.bits_ofBits,
    PCode.bits_ofBits, LcCode.bits_ofBits, SeqCode.bits_ofBits, BitVec.getLsbD_extractLsb']
  interval_cases k <;> simp

/-- The name a decoder gives a word stands for the word's own microinstruction (R69). -/
theorem micro_decode (w : Word32) : (decode w).micro = decodeMicro w := micro_nameOf _

/-- A decoded word encodes as its microinstruction. -/
theorem encode_decode (w : Word32) : encode (decode w) = encodeMicro (decodeMicro w) := by
  rw [encode, micro_decode]

/-- An encoded instruction is named by the leading row of its microinstruction. -/
theorem decode_encode (i : Instr) : decode (encode i) = i.micro.row i.micro.leading := by
  rw [decode, encode, decodeMicro_encodeMicro, nameOf]

/-- An instruction is the row of its own field group in the word it stands for. -/
@[simp] theorem Instr.row_group_micro (i : Instr) : i.micro.row i.group = i := by cases i <;> rfl

/-- Settles O1: the decoder names the word by its leading row, and the instruction is that row. -/
theorem decodeEncodeIsIdentity : Obligations.DecodeEncodeIsIdentity := by
  intro i hwf
  have hlead : i.group = i.micro.leading := beq_iff_eq.mp hwf
  rw [decode_encode, ← hlead, Instr.row_group_micro]

/-- Settles O2: the word keeps the microinstruction, and the instruction is that word's row of its own group. -/
theorem decodeEncodeKeepsMicroinstruction : Obligations.DecodeEncodeKeepsMicroinstruction := by
  intro i
  refine ⟨?micro, (Micro.mem_rows ..).mpr ⟨i.group, ?row⟩⟩
  case micro => rw [decode_encode, Micro.micro_row]
  case row => rw [encode, decodeMicro_encodeMicro, Instr.row_group_micro]

/-- Settles O3: the decoded word encodes as its own slices, packed again. -/
theorem encodeDecodeKeepsUsedBits : Obligations.EncodeDecodeKeepsUsedBits := by
  intro w
  rw [encode_decode, encodeMicro_decodeMicro]

/-! ## The used bits (R67) -/

/-- The mask of the used bits keeps exactly the slice 24:0. -/
theorem and_usedBits_eq (w : Word32) : w &&& 0x01FFFFFF#32 = (w.extractLsb' 0 25).setWidth 32 := by
  have hfield := (field_match_iff w 0 25 (by decide) _).mpr rfl
  rw [BitVec.shiftLeft_zero, BitVec.shiftLeft_zero] at hfield
  exact hfield

/-- Decoding depends on a word's used bits alone: they encode what it decodes to. -/
theorem decodeMicro_and_usedBits (w : Word32) : decodeMicro (w &&& 0x01FFFFFF#32) = decodeMicro w := by
  rw [← encodeMicro_decodeMicro, decodeMicro_encodeMicro]

/-- Settles O4: words with the same bits 24:0 are the same word once bits 31:25 are cleared. -/
theorem unusedBitsIgnored : Obligations.UnusedBitsIgnored := by
  intro w w' h
  rw [decode, decode, ← decodeMicro_and_usedBits w, ← decodeMicro_and_usedBits w', and_usedBits_eq, and_usedBits_eq, h]

/-! ## The immediates (R63, R64) -/

/-- A slice below bit 25 of a word is the same slice of what the word's microinstruction encodes to. -/
theorem extractLsb'_encodeMicro_decodeMicro (w : Word32) (n : Nat) (h : n ≤ 25) :
    (encodeMicro (decodeMicro w)).extractLsb' 0 n = w.extractLsb' 0 n := by
  rw [encodeMicro_decodeMicro, and_usedBits_eq]
  apply BitVec.eq_of_getLsbD_eq; intro k hk
  have h25 : k < 25 := by omega
  have h32 : k < 32 := by omega
  simp [h25, h32]

theorem lit16_decodeMicro (w : Word32) : (decodeMicro w).lit16 = w.extractLsb' 0 16 :=
  extractLsb'_encodeMicro_decodeMicro w 16 (by omega)

theorem imm8_decodeMicro (w : Word32) : (decodeMicro w).imm8 = w.extractLsb' 0 8 :=
  extractLsb'_encodeMicro_decodeMicro w 8 (by omega)

/-- IMM8 is the lowest bit of SEQ above ADR (R64). -/
theorem toNat_imm8 (m : Micro) : m.imm8.toNat = 128 * (m.seq.bits.toNat % 2) + m.adr.toNat := by
  rw [Micro.imm8, ← encodeMicro_seq, ← encodeMicro_adr]
  simp only [BitVec.extractLsb'_toNat, Nat.shiftRight_eq_div_pow, seqPos, adrPos]
  omega

/-- Settles O5: the codes' bits are the slices they were decoded from. -/
theorem wordSlices : Obligations.WordSlices := by
  intro w
  rw [micro_decode]
  exact ⟨AluCode.bits_ofBits _, TbCode.bits_ofBits _, FbCode.bits_ofBits _, SCode.bits_ofBits _, PCode.bits_ofBits _,
    LcCode.bits_ofBits _, SeqCode.bits_ofBits _, rfl, lit16_decodeMicro w, imm8_decodeMicro w, toNat_imm8 _⟩

/-! ## The opcode table (R69) -/

/-- Where a field group lies in the word (R61): all ones there, zeros elsewhere. -/
def FieldGroup.mask : FieldGroup → Word32
  | .alu => (BitVec.allOnes 4).setWidth 32 <<< aluPos
  | .tb => (BitVec.allOnes 3).setWidth 32 <<< tbPos
  | .fb => (BitVec.allOnes 3).setWidth 32 <<< fbPos
  | .s => (BitVec.allOnes 1).setWidth 32 <<< sPos
  | .p => (BitVec.allOnes 1).setWidth 32 <<< pPos
  | .lc => (BitVec.allOnes 2).setWidth 32 <<< lcPos
  | .seq => (BitVec.allOnes 4).setWidth 32 <<< seqPos

/-- The code of one field group, in its place in the word (R72). -/
def Micro.placed (m : Micro) : FieldGroup → Word32
  | .alu => m.alu.bits.setWidth 32 <<< aluPos
  | .tb => m.tb.bits.setWidth 32 <<< tbPos
  | .fb => m.fb.bits.setWidth 32 <<< fbPos
  | .s => m.s.bits.setWidth 32 <<< sPos
  | .p => m.p.bits.setWidth 32 <<< pPos
  | .lc => m.lc.bits.setWidth 32 <<< lcPos
  | .seq => m.seq.bits.setWidth 32 <<< seqPos

/-- A field's mask takes that field alone out of an encoded word. -/
theorem encodeMicro_and_mask (m : Micro) (g : FieldGroup) : encodeMicro m &&& g.mask = m.placed g := by
  cases g
  case alu => exact (field_match_iff _ _ _ (by decide) _).mpr (encodeMicro_alu m)
  case tb => exact (field_match_iff _ _ _ (by decide) _).mpr (encodeMicro_tb m)
  case fb => exact (field_match_iff _ _ _ (by decide) _).mpr (encodeMicro_fb m)
  case s => exact (field_match_iff _ _ _ (by decide) _).mpr (encodeMicro_s m)
  case p => exact (field_match_iff _ _ _ (by decide) _).mpr (encodeMicro_p m)
  case lc => exact (field_match_iff _ _ _ (by decide) _).mpr (encodeMicro_lc m)
  case seq => exact (field_match_iff _ _ _ (by decide) _).mpr (encodeMicro_seq m)

/-- No field reaches into bits 31:25. -/
theorem usedBits_and_mask (w : Word32) (g : FieldGroup) : w &&& 0x01FFFFFF#32 &&& g.mask = w &&& g.mask := by
  rw [BitVec.and_assoc]
  cases g <;> rfl

/-- The opcode table gives every row the mask of its field group. -/
theorem tableRow_mask (i : Instr) : i.tableRow.mask = i.group.mask := by cases i <;> rfl

/-- The opcode table gives every row its code, in its field's place, as pattern. -/
theorem tableRow_pattern (i : Instr) : i.tableRow.pattern = i.micro.placed i.group := by
  cases i <;> dsimp only [Instr.tableRow, Instr.group, Instr.micro, Micro.placed, AluCtx.word, TbCtx.word, FbCtx.word,
    SCtx.word, PCtx.word, LcCtx.word, SeqCtx.word] <;> decide

/-- A row's pattern determines the row: in its field group, it is the one the pattern itself decodes to. -/
theorem tableRow_row_pattern (i : Instr) : ((decodeMicro i.tableRow.pattern).row i.group).tableRow = i.tableRow := by
  cases i <;> dsimp only [Instr.tableRow, Instr.group] <;> decide

/-- The row of a group that a word decodes to has that field of the word as its pattern. -/
theorem pattern_row_decodeMicro (w : Word32) (g : FieldGroup) :
    ((decodeMicro w).row g).tableRow.pattern = w &&& g.mask := by
  rw [tableRow_pattern, Micro.micro_row, Micro.group_row, ← encodeMicro_and_mask, encodeMicro_decodeMicro,
    usedBits_and_mask]

/-- Settles O6: a word matches a row when the row it decodes to has the same pattern, and the pattern determines
the row. -/
theorem rowsMatchOpcodeTable : Obligations.RowsMatchOpcodeTable := by
  intro i w
  have hfits : i.fitsRow w = true ↔ ((decodeMicro w).row i.group).tableRow.pattern = i.tableRow.pattern := by
    rw [Instr.fitsRow, beq_iff_eq, tableRow_mask, pattern_row_decodeMicro]
  rw [hfits, micro_decode]
  constructor
  · intro hpat
    have hrow := tableRow_row_pattern ((decodeMicro w).row i.group)
    rw [Micro.group_row, hpat, tableRow_row_pattern] at hrow
    exact hrow.symm
  · exact congrArg TableRow.pattern

/-- Settles O8: each word is sliced at the positions of R61 and named by its first field that is not 0. -/
theorem wordsDecode : Obligations.WordsDecode := by
  refine ⟨?_, ?_, ?_, ?_, ?_, ?_, ?_⟩ <;> decide

end Sys2Proof

namespace Sys2Proof.Machine

/-- Settles O7: every row of a word executes as the micro-cycle of the whole word. -/
theorem rowsExecuteAlike : Obligations.RowsExecuteAlike := by
  intro w i j s hi hj
  obtain ⟨g, rfl⟩ := (Micro.mem_rows ..).mp hi
  obtain ⟨g', rfl⟩ := (Micro.mem_rows ..).mp hj
  rw [exec_eq_microCycle, exec_eq_microCycle, Micro.micro_row, Micro.micro_row]

end Sys2Proof.Machine
end
section
/-! PROOFS. The step, the placing of a word and initialisation (spec/40_cycle_decode.md R80 to R84, R94;
60_exceptions.md R193; 70_reset_and_hazards.md R210). -/

namespace Sys2Proof.Machine

open Sys2Proof.Safety

/-! ## The step in each of its three cases (R83, R84, R193) -/

/-- A running core with uPC in range executes the instruction decoded from the fetched word (R84, R85). -/
theorem step_of_inRange {s : State} (hrun : s.halted = false) (hupc : s.upc.toNat < csSize) :
    step s = exec (decode (fetchWord s)) s := by
  rw [step, if_neg (by simp [hrun]), if_pos ((upcInRange_iff s).mpr hupc)]

/-- A running core with uPC in range answers the micro-cycle of the fetched word. -/
theorem step_eq_microCycle {s : State} (hrun : s.halted = false) (hupc : s.upc.toNat < csSize) :
    step s = .next (microCycle (decodeMicro (fetchWord s)) s) := by
  rw [step_of_inRange hrun hupc, exec_eq_microCycle, micro_decode]

/-- A running core with uPC out of range faults (R193). -/
theorem step_of_outOfRange {s : State} (hrun : s.halted = false) (hupc : csSize ≤ s.upc.toNat) :
    step s = .fault (.upcOutOfRange s.upc) := by
  have hrange : upcInRange s ≠ true := fun h => Nat.not_lt.mpr hupc ((upcInRange_iff s).mp h)
  rw [step, if_neg (by simp [hrun]), if_neg hrange, raiseUpcOutOfRange]

/-- Settles O9: the step adds nothing around exec in its third case. -/
theorem stepRunsDecodedInstruction : Obligations.StepRunsDecodedInstruction :=
  fun _ hrun hupc => step_of_inRange hrun (Nat.lt_succ_of_le hupc)

/-- A run stops at the first fault. -/
theorem run_succ_of_step_fault {M : Host.Core} {s : M.State} {r : M.Fault} (h : M.step s = .fault r) (k : Nat) :
    M.run (k + 1) s = .fault r := by
  rw [Host.Core.run, h]

/-- Settles O11: the run's first step is the fault. -/
theorem outOfRangeUpcFaults : Obligations.OutOfRangeUpcFaults := by
  intro s k hrun hupc
  have hstep : step s = .fault (.upcOutOfRange s.upc) := step_of_outOfRange hrun hupc
  exact ⟨hstep, run_succ_of_step_fault (M := Sys2Proof.core) hstep k⟩

/-- Settles O12, by the three cases of the step. -/
theorem stepIsTotalInRange : Obligations.StepIsTotalInRange := by
  intro s
  obtain ⟨hhalt, hstep⟩ | ⟨hrun, hrange, hstep⟩ | ⟨hrun, hrange, hstep⟩ := step_cases s
  · rw [hstep]
    exact ⟨iff_of_true ⟨_, rfl⟩ (.inl hhalt), nofun⟩
  · have hupc : ¬ s.upc.toNat < 128 := fun h => by simp [(upcInRange_iff s).mpr h] at hrange
    rw [hstep]
    exact ⟨iff_of_false nofun (by simp [hrun]; omega), nofun⟩
  · rw [hstep]
    exact ⟨iff_of_true ⟨_, rfl⟩ (.inr (Nat.le_of_lt_succ ((upcInRange_iff s).mp hrange))), nofun⟩

/-! ## A word placed where the step fetches (log 3) -/

/-- The canonical form of the state, memory by memory. -/
theorem State.memoryWf_iff (s : State) : s.memoryWf = true ↔
    s.pm.wf pmSize = true ∧ s.cs.wf csSize = true ∧ s.k1.wf k1Size = true ∧ s.k2.wf k2Size = true := by
  simp only [State.memoryWf, Bool.and_eq_true, and_assoc]

/-- The control store is canonical when all four memories are. -/
theorem State.cs_wf {s : State} (h : s.memoryWf = true) : s.cs.wf csSize = true :=
  have ⟨_, hcs, _⟩ := (State.memoryWf_iff s).mp h
  hcs

section
variable (s : State) (nbits w : Nat)

theorem withFetchWord_halted : (s.withFetchWord nbits w).halted = false := rfl

theorem withFetchWord_upc : (s.withFetchWord nbits w).upc = if upcInRange s then s.upc else 0#8 := by
  simp only [State.withFetchWord, setCsCell_upc, setHalted_upc]
  split <;> rfl

/-- The placed word always lies in the control store. -/
theorem withFetchWord_upc_lt : (s.withFetchWord nbits w).upc.toNat < csSize := by
  rw [withFetchWord_upc]
  split
  case isTrue h => exact (upcInRange_iff s).mp h
  case isFalse => decide

theorem withFetchWord_cs : (s.withFetchWord nbits w).cs =
    s.cs.write (s.withFetchWord nbits w).upc.toNat (BitVec.ofNat 32 (w % 2 ^ nbits)) := by
  simp only [State.withFetchWord, setCsCell_cs, setCsCell_upc, setHalted_cs]
  split <;> rfl

/-- The placing touches the control store, uPC and the halt latch alone. -/
theorem withFetchWord_frame :
    { s.withFetchWord nbits w with halted := s.halted, upc := s.upc, cs := s.cs } = s := by
  unfold State.withFetchWord
  split <;> rfl

end

/-- In a canonical control store the next fetch is of the placed word. -/
theorem fetchWord_withFetchWord {s : State} (h : s.memoryWf = true) (nbits w : Nat) :
    fetchWord (s.withFetchWord nbits w) = BitVec.ofNat 32 (w % 2 ^ nbits) := by
  rw [fetchWord, withFetchWord_cs, Memory.read_write_of_wf (State.cs_wf h), if_pos rfl]

/-- Settles O13: the cell read back is the one the step fetches, and it lies in range. -/
theorem fetchWordRunsNext : Obligations.FetchWordRunsNext := by
  intro s w hwf hw t
  refine ⟨?step, withFetchWord_halted .., fun hupc => ?inRange, fun hupc => ?outOfRange, withFetchWord_frame ..,
    fun a ha => ?cells⟩
  case step =>
    have hfetch : fetchWord t = BitVec.ofNat 32 w := by rw [fetchWord_withFetchWord hwf, Nat.mod_eq_of_lt hw]
    rw [step_of_inRange (withFetchWord_halted ..) (withFetchWord_upc_lt ..), hfetch]
  case inRange =>
    exact (withFetchWord_upc ..).trans (if_pos ((upcInRange_iff s).mpr (Nat.lt_succ_of_le hupc)))
  case outOfRange =>
    exact (withFetchWord_upc ..).trans (if_neg fun h => Nat.not_lt.mpr hupc ((upcInRange_iff s).mp h))
  case cells => rw [withFetchWord_cs, Memory.read_write_ne _ _ _ _ ha]

/-! ## Initialisation (R210) -/

/-- The memory built from an array reads as that array, inside its size. -/
theorem read_ofList_vector {w size : Nat} (cells : Vector (BitVec w) size) (a : Fin size) :
    (Memory.ofList 0 cells.toList).read a.val = cells[a] := by
  have hread := Memory.read_ofList 0 a.val cells.toList
  rw [Nat.zero_add] at hread
  rw [hread]
  simp

/-- The memory built from an array is canonical. -/
theorem wf_ofList_vector {w size : Nat} (cells : Vector (BitVec w) size) :
    (Memory.ofList 0 cells.toList).wf size = true :=
  Memory.wf_ofList _ (by simp)

/-- Settles O14: each memory is built from its array, and every other field is a field of the snapshot. -/
theorem initialiserInstalls : Obligations.InitialiserInstalls := by
  intro img x s
  refine ⟨read_ofList_vector img.pm, read_ofList_vector img.cs, read_ofList_vector img.k1, read_ofList_vector img.k2,
    ⟨rfl, rfl, rfl, rfl, rfl, rfl, rfl, rfl, rfl, rfl, rfl, rfl⟩, ⟨rfl, rfl, rfl, rfl, rfl⟩, rfl, rfl, ?wf⟩
  exact (State.memoryWf_iff s).mpr ⟨wf_ofList_vector img.pm, wf_ofList_vector img.cs, wf_ofList_vector img.k1,
    wf_ofList_vector img.k2⟩

/-- Settles O15: with nothing listed, every cell reads as an unlisted one. -/
theorem resetLeaves : Obligations.ResetLeaves :=
  ⟨fun _ => rfl, fun _ => rfl, fun _ => rfl, fun _ => rfl, rfl, rfl⟩

/-- Settles O16: the snapshot has LC 0 with L set, and uSP and uPC 0. -/
theorem resetMeetsInvariant : Obligations.ResetMeetsInvariant :=
  ⟨⟨rfl, rfl, by decide⟩, by decide⟩

end Sys2Proof.Machine
end
section
/-! PROOFS. The ALU rows that add (spec/43_alu.md R135, R136), shift left (R140) and work on the pair AR:HR (R141, R143,
R146), each for every other field of its word, literal mode included. -/

namespace Sys2Proof.Machine

open Sys2Proof.Safety

/-! ## ADD, ADDK, LSL -/

/-- O of code 4 by the bits 7 of the operands and the sum (R135). -/
theorem flagOAdd_iff (ar bus r : Word) : flagOAdd ar bus r = true ↔
    bitOf bus.toNat 7 = bitOf r.toNat 7 ∧ bitOf ar.toNat 7 ≠ bitOf r.toNat 7 := by
  simp only [flagOAdd, getLsbD_eq_bitOf, Bool.and_eq_true, beq_iff_eq, bne_iff_ne, decide_eq_decide, ne_eq]
  have := bitOf_cases bus.toNat 7
  have := bitOf_cases ar.toNat 7
  have := bitOf_cases r.toNat 7
  omega

/-- Settles O19: the sum of words is modulo 65536, and both flags are read off it. -/
theorem aluAddResult : Obligations.AluAddResult := by
  intro x s b r
  have hr : r = (s.ar + busSource (x.word .add) s).toNat := (BitVec.toNat_add ..).symm
  refine ⟨_, exec_eq_microCycle .., ?_⟩
  rw [hr, ← flagZ_iff, ← flagN_iff, ← flagOAdd_iff, ← flagCAdd_iff]
  exact microCycle_aluResult (x.word .add) s

/-- Settles O20: ADDK is ADD without the new O. -/
theorem aluAddkResult : Obligations.AluAddkResult := by
  intro x s r
  have hr : r = (s.ar + busSource (x.word .addk) s).toNat := (BitVec.toNat_add ..).symm
  refine ⟨_, exec_eq_microCycle .., ?_⟩
  rw [hr, ← flagCAdd_iff]
  exact microCycle_aluResult_of_withZN rfl

/-- Settles O23: the shift doubles, and C is the old bit 7, not the bit that leaves the word. -/
theorem aluLslResult : Obligations.AluLslResult := by
  intro x s r
  have hr : r = (s.ar <<< 1).toNat := by rw [BitVec.toNat_shiftLeft, Nat.shiftLeft_eq]
  refine ⟨_, exec_eq_microCycle .., ?_⟩
  rw [← flagCLeft_iff, hr]
  exact microCycle_aluResult_of_withZN rfl

/-! ## LSL32, ASR32, ROL32 -/

/-- The top bit of the pair is that of AR (R14). -/
theorem bitOf_pair_top (x : AluRegs) : bitOf (pair x).toNat 31 = bitOf x.ar.toNat 15 := by
  have := x.hr.isLt
  rw [toNat_pair]
  unfold bitOf
  omega

/-- Settles O24: Z and N are those of the whole doubled pair. -/
theorem aluLsl32Result : Obligations.AluLsl32Result := by
  intro x s v
  have hv : v = (pair (aluRegs s) <<< 1).toNat := by
    rw [BitVec.toNat_shiftLeft, Nat.shiftLeft_eq, toNat_pair]; rfl
  refine ⟨_, exec_eq_microCycle .., ?_⟩
  rw [hv, ← toNat_upper, ← toNat_lower, ← flagZ32_iff, ← flagN32_iff, ← flagCLeft_iff]
  exact microCycle_aluResult (x.word .lsl32) s

/-- Settles O26: the pair keeps its top bit, which is AR's, and Z and N are those of its upper half. -/
theorem aluAsr32Result : Obligations.AluAsr32Result := by
  intro x s v
  have hv : v = ((pair (aluRegs s)).sshiftRight 1).toNat := by
    rw [toNat_sshiftRight32, bitOf_pair_top, toNat_pair]; rfl
  refine ⟨_, exec_eq_microCycle .., ?_⟩
  rw [hv, ← toNat_upper, ← toNat_lower, ← flagZ_iff, ← flagN_iff, ← flagCBit0_iff]
  exact microCycle_aluResult (x.word .asr32) s

/-- The lower half of the rotated pair: HR doubled, with the old AR bit 15 as its bit 0 (R146). -/
theorem toNat_lower_rotateLeft_pair (x : AluRegs) :
    (lower ((pair x).rotateLeft 1)).toNat = x.hr.toNat * 2 % 65536 + bitOf x.ar.toNat 15 := by
  rw [toNat_lower, toNat_rotateLeft32, bitOf_pair_top, toNat_pair]
  have := bitOf_cases x.ar.toNat 15
  omega

/-- Settles O29: AR takes the lower half, so HR is the half that moves. -/
theorem aluRol32Result : Obligations.AluRol32Result := by
  intro x s r
  refine ⟨_, exec_eq_microCycle .., ?_⟩
  rw [← flagCBit0_iff, show r = (lower ((pair (aluRegs s)).rotateLeft 1)).toNat from
    (toNat_lower_rotateLeft_pair (aluRegs s)).symm]
  exact microCycle_aluResult_of_withZN rfl

end Sys2Proof.Machine
end
section
/-! PROOFS. The rows outside literal mode that select a register, write HR and choose the next address by uPC, IR or a
flag (spec/40_cycle_decode.md R87 to R90; 42_writeback_control.md R116; 44_sequencer.md R161 to R163, R165, R169 to
R177), and the words in literal mode. -/

namespace Sys2Proof.Machine

open Sys2Proof.Safety

/-! ## General registers, literal mode, HR -/

/-- Settles O33: the register that S picks is the bus source of TB = 6. -/
theorem tbGrSource : Obligations.TbGrSource :=
  fun x s => exec_busReaches (.tbGr x) s nofun

/-- Settles O35: the literal path installs the ALU stage and counts, and HR is an output of codes 10 and 12 alone. -/
theorem literalModeSkipsStages : Obligations.LiteralModeSkipsStages := by
  intro i s hlit
  exact ⟨_, exec_of_lit s hlit, literalPath_onlyAluChanged .., alu_hr _ _ _, literalPath_cycleCount ..⟩

/-- An instruction outside literal mode reads and writes one general register, the one its S picks (R87). -/
theorem exec_selects (i : Instr) (s : State) (hlit : i.micro.tb ≠ .lit) {k : BitVec 2}
    (hk : selIndex i.micro.s s = k) : ∃ t, exec i s = .next t ∧
      (i.micro.tb = .gr → BusReaches i.micro (readGr k s) s t) ∧
      (i.micro.fb = .gr → readGr k t = busSource i.micro s ∧ ∀ j, j ≠ k → readGr j t = readGr j s) := by
  subst hk
  refine ⟨_, exec_of_normal s hlit, fun htb => ?read, fun hfb => ⟨?write, fun j hj => ?others⟩⟩
  case read =>
    have hbus : busSource i.micro s = readGr (selIndex i.micro.s s) s := by rw [busSource, htb, busGr]
    rw [← hbus]
    exact normalPath_busReaches ..
  case write => rw [readGr_normalPath, if_pos ⟨hfb, rfl⟩]
  case others => rw [readGr_normalPath, if_neg fun ⟨_, hsel⟩ => hj hsel]

/-- Settles O36: the model's GRx and M are the fields at IR[11:10] and IR[9:8]. -/
theorem registerSelectRows : Obligations.RegisterSelectRows := by
  intro x s hlit
  exact ⟨exec_selects (.sGrx x) s hlit (irGrx_eq s.ir), exec_selects (.sM x) s hlit (irMode_eq s.ir)⟩

/-- Settles O42: the bus is written to HR after the ALU's outputs. -/
theorem fbHrRow : Obligations.FbHrRow := by
  intro x s hlit
  have ⟨halu, _⟩ := normalPath_busReaches .pre (x.word .hr) s
  exact ⟨_, exec_of_normal (i := .fbHr x) s hlit, (normalPath_hr ..).trans (if_pos rfl), halu,
    normalPath_otherTargetsKept ..⟩

/-! ## NEXT, K1 and K2 -/

/-- NEXT goes to the next address (R161). -/
theorem upcAfter_of_next (view : FlagView) {m : Micro} (s : State) (h : m.seq = .next) :
    upcAfter view m s = upcNext s := by
  rw [upcAfter, sequencer, h]; rfl

/-- Settles O45: the increment is of an 8-bit value, and nothing masks it to 7 bits. -/
theorem seqNextRow : Obligations.SeqNextRow := by
  intro x s hlit
  refine ⟨_, exec_of_normal (i := .seqNext x) s hlit, ?_⟩
  rw [← toNat_upcNext, ← upcAfter_of_next .pre (m := x.word .next) s rfl]
  exact normalPath_seqResult .pre nofun nofun

/-- The M field of IR as a number (R66). -/
theorem toNat_irMode (ir : Word) : (irMode ir).toNat = ir.toNat / 256 % 4 := by
  rw [irMode_eq, BitVec.toNat_ofNat]; omega

/-- Settles O46: the entry, read at a field of the old IR, becomes uPC whole. -/
theorem seqDispatchRows : Obligations.SeqDispatchRows := by
  intro x s hlit
  have hk1 : (upcAfter .pre (x.word .k1) s).toNat = (s.k1.read (s.ir.toNat / 4096)).toNat := by
    rw [← normalPath_upc, normalPath_upc_of_k1 .pre s rfl, readK1, toNat_irOp]
  have hk2 : (upcAfter .pre (x.word .k2) s).toNat = (s.k2.read (s.ir.toNat / 256 % 4)).toNat := by
    rw [← normalPath_upc, normalPath_upc_of_k2 .pre s rfl, readK2, toNat_irMode]
  refine ⟨⟨_, exec_of_normal (i := .seqK1 x) s hlit, ?k1⟩, ⟨_, exec_of_normal (i := .seqK2 x) s hlit, ?k2⟩⟩
  case k1 => rw [← hk1]; exact normalPath_seqResult .pre nofun nofun
  case k2 => rw [← hk2]; exact normalPath_seqResult .pre nofun nofun

/-! ## The conditional jumps (R165, R169 to R175, R177) -/

/-- What a conditional jump tests of the flags it sees; nothing for the other eight codes. -/
def jumpTest : SeqCode → SeqFlags → Option Bool
  | .jnz, f => some (!f.z)
  | .jz, f => some f.z
  | .jn, f => some f.n
  | .jc, f => some f.c
  | .jo, f => some f.o
  | .jl, f => some f.l
  | .jnc, f => some (!f.c)
  | .jno, f => some (!f.o)
  | _, _ => none

/-- A conditional jump writes uPC by its test and nothing else. -/
theorem sequencer_of_jumpTest {m : Micro} {f : SeqFlags} {b : Bool} (old t : State) (h : jumpTest m.seq f = some b) :
    sequencer m f old t = setUpc (jumpIf b m.adr old) t := by
  unfold sequencer
  generalize m.seq = code at h ⊢
  cases code with
  | next | k1 | k2 | zero | jmp | call | ret | halt => cases h
  | jnz | jz | jn | jc | jo | jl | jnc | jno => cases h; rfl

/-- The sequencer sees of the flags the one that its code tests. -/
theorem sequencer_congr_flags {m : Micro} {f f' : SeqFlags} (old t : State)
    (h : jumpTest m.seq f = jumpTest m.seq f') : sequencer m f old t = sequencer m f' old t := by
  unfold sequencer
  generalize m.seq = code at h ⊢
  cases code with
  | next | k1 | k2 | zero | jmp | call | ret | halt => rfl
  | jnz | jz | jn | jc | jo | jl | jnc | jno =>
    exact congrArg (fun b => setUpc (jumpIf b m.adr old) t) (Option.some.inj h)

/-- The two ways to write where a conditional jump goes. -/
theorem toNat_jumpIf (b : Bool) (adr : BitVec 7) (s : State) : (jumpIf b adr s).toNat = jumpsTo b adr s := by
  cases b
  · exact toNat_upcNext s
  · exact toNat_jumpTarget adr

/-- The next address of a conditional jump. -/
theorem toNat_upcAfter_of_jumpTest (view : FlagView) {m : Micro} {s : State} {b : Bool}
    (h : jumpTest m.seq (seqFlags view (aluStage m s) s) = some b) :
    (upcAfter view m s).toNat = jumpsTo b m.adr s := by
  rw [upcAfter, sequencer_of_jumpTest s s h, setUpc_upc, toNat_jumpIf]

/-- A conditional jump goes where its test says and leaves uSP and the halt latch. -/
theorem normalPath_seqResult_of_jumpTest (view : FlagView) {m : Micro} {s : State} {b : Bool}
    (h : jumpTest m.seq (seqFlags view (aluStage m s) s) = some b) :
    SeqResult (normalPath view m s) (jumpsTo b m.adr s) s.usp s.halted := by
  have hcall : m.seq ≠ .call := by intro hseq; rw [hseq] at h; cases h
  have hhalt : m.seq ≠ .halt := by intro hseq; rw [hseq] at h; cases h
  rw [← toNat_upcAfter_of_jumpTest view h]
  exact normalPath_seqResult view hcall hhalt

/-- Settles O49: under the `pre` view each code tests its flag of the state before. -/
theorem seqConditionalRows : Obligations.SeqConditionalRows := by
  intro x s hlit
  exact ⟨⟨_, exec_of_normal (i := .seqJnz x) s hlit, normalPath_seqResult_of_jumpTest .pre rfl⟩,
    ⟨_, exec_of_normal (i := .seqJz x) s hlit, normalPath_seqResult_of_jumpTest .pre rfl⟩,
    ⟨_, exec_of_normal (i := .seqJn x) s hlit, normalPath_seqResult_of_jumpTest .pre rfl⟩,
    ⟨_, exec_of_normal (i := .seqJc x) s hlit, normalPath_seqResult_of_jumpTest .pre rfl⟩,
    ⟨_, exec_of_normal (i := .seqJo x) s hlit, normalPath_seqResult_of_jumpTest .pre rfl⟩,
    ⟨_, exec_of_normal (i := .seqJl x) s hlit, normalPath_seqResult_of_jumpTest .pre rfl⟩,
    ⟨_, exec_of_normal (i := .seqJnc x) s hlit, normalPath_seqResult_of_jumpTest .pre rfl⟩,
    ⟨_, exec_of_normal (i := .seqJno x) s hlit, normalPath_seqResult_of_jumpTest .pre rfl⟩⟩

/-! ## HALT (R176) -/

/-- HALT goes to address 0. -/
theorem upcAfter_of_halt (view : FlagView) {m : Micro} (s : State) (h : m.seq = .halt) :
    upcAfter view m s = 0#8 := by
  rw [upcAfter, sequencer, h]; rfl

/-- The new LC depends on SEQ and ADR under LC control 3 alone (R121 to R124). -/
theorem lcNext_congr_of_ne_imm {m m' : Micro} (bus : Word) (old : State) (hlc : m.lc = m'.lc) (himm : m.lc ≠ .imm) :
    lcNext m bus old = lcNext m' bus old := by
  rw [lcNext, lcNext, ← hlc]
  cases h : m.lc with
  | imm => exact absurd h himm
  | hold | dec | bus => rfl

/-- A halting cycle leaves the state of the same word with NEXT, but for uPC, the latch, LC and L (R91, R176). -/
theorem normalPath_halt_eq_next (view : FlagView) {m : Micro} (s : State) (hlit : m.tb ≠ .lit) :
    let t := normalPath view { m with seq := .halt } s
    t = { normalPath view { m with seq := .next } s with upc := 0#8, halted := true, lc := t.lc, l := t.l } := by
  have hbus : busSource { m with seq := .halt } s = busSource { m with seq := .next } s :=
    busSource_congr s hlit rfl rfl
  have halu : aluStage { m with seq := .halt } s = aluStage { m with seq := .next } s := aluStage_congr rfl hbus
  have hupc : upcAfter view { m with seq := .halt } s = 0#8 := upcAfter_of_halt view s rfl
  apply State.eq_of_fields <;> simp [hbus, halu, hupc]

/-- Settles O50: the halting cycle is a normal cycle, and the latch stops the step after it. -/
theorem seqHaltRow : Obligations.SeqHaltRow := by
  intro x s hlit
  have hhalted : (normalPath .pre (x.word .halt) s).halted = true := (normalPath_halted ..).trans (if_pos rfl)
  have hbus : busSource (x.word .halt) s = busSource (x.word .next) s := busSource_congr s hlit rfl rfl
  refine ⟨_, exec_of_normal (i := .seqHalt x) s hlit, ⟨?upc, ?usp, hhalted⟩, normalPath_cycleCount ..,
    step_of_halted hhalted, ⟨_, exec_of_normal (i := .seqNext x) s hlit,
      normalPath_halt_eq_next .pre (m := x.word .next) s hlit, fun hlc => ?notImm⟩, fun hlc => ⟨?imm, normalPath_l_iff ..⟩⟩
  case upc => rw [Instr.micro, normalPath_upc, upcAfter_of_halt .pre s rfl]; rfl
  case usp => exact (normalPath_usp ..).trans (if_neg nofun)
  case notImm =>
    have hnext : lcNext (x.word .halt) (busSource (x.word .halt) s) s =
        lcNext (x.word .next) (busSource (x.word .next) s) s := hbus ▸ lcNext_congr_of_ne_imm _ s rfl hlc
    exact ⟨(normalPath_lc ..).trans (hnext.trans (normalPath_lc ..).symm),
      (normalPath_l ..).trans ((congrArg flagL hnext).trans (normalPath_l ..).symm)⟩
  case imm => rw [Instr.micro, normalPath_lc, lcNext, show (x.word .halt).lc = .imm from hlc]; rfl

end Sys2Proof.Machine
end
section
/-! PROOFS. Frames of every instruction in both modes (spec/40_cycle_decode.md R90 to R93; 43_alu.md R150), what the ALU
code and the flag view reach, and the host's actions (20_memory.md R47; 70_reset_and_hazards.md R211, R236). -/

namespace Sys2Proof.Machine

open Sys2Proof.Safety

/-! ## The micro-cycle in both modes, field by field -/

section
variable (m : Micro) (s : State)

@[simp] theorem microCycle_ar : (microCycle m s).ar = (aluStage m s).ar := by
  obtain ⟨-, hpath⟩ | ⟨-, hpath⟩ := microCycle_cases m s <;> simp [hpath]

@[simp] theorem microCycle_z : (microCycle m s).z = (aluStage m s).z := by
  obtain ⟨-, hpath⟩ | ⟨-, hpath⟩ := microCycle_cases m s <;> simp [hpath]

@[simp] theorem microCycle_n : (microCycle m s).n = (aluStage m s).n := by
  obtain ⟨-, hpath⟩ | ⟨-, hpath⟩ := microCycle_cases m s <;> simp [hpath]

@[simp] theorem microCycle_o : (microCycle m s).o = (aluStage m s).o := by
  obtain ⟨-, hpath⟩ | ⟨-, hpath⟩ := microCycle_cases m s <;> simp [hpath]

@[simp] theorem microCycle_c : (microCycle m s).c = (aluStage m s).c := by
  obtain ⟨-, hpath⟩ | ⟨-, hpath⟩ := microCycle_cases m s <;> simp [hpath]

@[simp] theorem microCycle_cycleCount : (microCycle m s).cycleCount = s.cycleCount + 1 := by
  obtain ⟨-, hpath⟩ | ⟨-, hpath⟩ := microCycle_cases m s <;> simp [hpath]

@[simp] theorem microCycle_cs : (microCycle m s).cs = s.cs := by
  obtain ⟨-, hpath⟩ | ⟨-, hpath⟩ := microCycle_cases m s <;> simp [hpath]

@[simp] theorem microCycle_k1 : (microCycle m s).k1 = s.k1 := by
  obtain ⟨-, hpath⟩ | ⟨-, hpath⟩ := microCycle_cases m s <;> simp [hpath]

@[simp] theorem microCycle_k2 : (microCycle m s).k2 = s.k2 := by
  obtain ⟨-, hpath⟩ | ⟨-, hpath⟩ := microCycle_cases m s <;> simp [hpath]

end

/-- Program memory changes by one write at the old ASR, under FB = 2 outside literal mode (R113). -/
theorem microCycle_pm (m : Micro) (s : State) : (microCycle m s).pm =
    if m.tb ≠ .lit ∧ m.fb = .pm then s.pm.write s.asr.toNat (busSource m s) else s.pm := by
  obtain ⟨hlit, hpath⟩ | ⟨hlit, hpath⟩ := microCycle_cases m s <;> simp [hpath, hlit]

/-- A literal cycle leaves the general registers. -/
theorem readGr_literalPath (m : Micro) (s : State) (j : BitVec 2) : readGr j (literalPath m s) = readGr j s :=
  readGr_congr rfl rfl rfl rfl j

/-- NOP gives AR back (R131). -/
theorem aluStage_ar_of_nop {m : Micro} (s : State) (h : m.alu = .nop) : (aluStage m s).ar = s.ar := by
  rw [aluStage, h]; rfl

/-! ## Frames -/

/-- Settles O51, register by register in each of the two modes. -/
theorem registerFrame : Obligations.RegisterFrame := by
  intro i s t hexec m
  rw [eq_microCycle_of_exec hexec]
  refine ⟨fun hnop => (microCycle_ar ..).trans (aluStage_ar_of_nop s hnop), ?_⟩
  obtain ⟨hlit, hpath⟩ | ⟨hlit, hpath⟩ := microCycle_cases m s
  · rw [hpath]
    exact ⟨fun h10 h12 _ => alu_hr _ _ _ h10 h12, fun j _ => readGr_literalPath m s j, fun _ => rfl, fun _ => rfl,
      fun _ => rfl, fun _ => rfl, fun _ => rfl, fun _ => rfl, fun _ => rfl⟩
  · rw [hpath]
    refine ⟨fun h10 h12 h => ?hr, fun j h => ?gr, fun h => ?ir, fun h => ?asr, fun h => ?pc, fun h => ?lc, fun h => ?usp,
      fun h => ?halted, fun h => absurd h hlit⟩
    case hr => rw [normalPath_hr, if_neg (h.resolve_left hlit)]; exact alu_hr _ _ _ h10 h12
    case gr =>
      have hne : ¬ (m.fb = .gr ∧ j = selIndex m.s s) := fun ⟨hfb, hj⟩ =>
        (h.resolve_left hlit).elim (· hfb) (· hj)
      rw [readGr_normalPath, if_neg hne]
    case ir => rw [normalPath_ir, if_neg (h.resolve_left hlit)]
    case asr => rw [normalPath_asr, if_neg (h.resolve_left hlit)]
    case pc =>
      obtain ⟨hfb, hp⟩ := h.resolve_left hlit
      rw [normalPath_pc, if_neg (by simp [hp]), if_neg hfb]
    case lc => rw [normalPath_lc, lcNext, h.resolve_left hlit, lcHold]
    case usp => rw [normalPath_usp, if_neg (h.resolve_left hlit)]
    case halted => rw [normalPath_halted, if_neg (h.resolve_left hlit)]

/-- Settles O52: the flags are the ALU stage's in both modes, and L belongs to the normal path. -/
theorem flagFrame : Obligations.FlagFrame := by
  intro i s t hexec m
  rw [eq_microCycle_of_exec hexec, microCycle_z, microCycle_n, microCycle_c, microCycle_o]
  refine ⟨alu_zn m.alu _ _, alu_c m.alu _ _, alu_o m.alu _ _, fun hlit => ?l, microCycle_cycleCount ..⟩
  case l => rw [microCycle_lit _ _ hlit, literalPath_l]

/-- Settles O53: a write leaves every other cell as it reads, in any memory. -/
theorem memoryFrame : Obligations.MemoryFrame := by
  intro i s t hexec m
  rw [eq_microCycle_of_exec hexec]
  refine ⟨fun a h => ?pm, microCycle_cs .., microCycle_k1 .., microCycle_k2 ..⟩
  rw [microCycle_pm]
  split
  case isTrue hwrite =>
    obtain ⟨hlit, hfb⟩ := hwrite
    have ha : a ≠ s.asr.toNat := (h.resolve_left hlit).resolve_left (not_not_intro hfb)
    exact Memory.read_write_ne _ _ _ _ ha
  case isFalse => rfl

/-! ## What the ALU code reaches (R91, R93) -/

/-- Under the `pre` view the next address depends on the word through SEQ and ADR alone (R160). -/
theorem upcAfter_pre_congr {m m' : Micro} (s : State) (hseq : m.seq = m'.seq) (hadr : m.adr = m'.adr) :
    upcAfter .pre m s = upcAfter .pre m' s := by
  rw [upcAfter, upcAfter, sequencer, sequencer, hseq, hadr]; rfl

/-- A micro-cycle with another ALU code leaves the same state but for AR, HR, Z, N, O and C. -/
theorem microCycle_with_alu (m : Micro) (code : AluCode) (s : State) :
    installAlu (aluRegs (microCycle m s)) (microCycle { m with alu := code } s) = microCycle m s := by
  obtain ⟨hlit, hpath⟩ | ⟨hlit, hpath⟩ := microCycle_cases m s
  · rw [hpath, microCycle_lit { m with alu := code } s hlit]
    apply State.eq_of_fields <;> rfl
  · have hbus : busSource { m with alu := code } s = busSource m s := busSource_congr s hlit rfl rfl
    have hupc : upcAfter .pre { m with alu := code } s = upcAfter .pre m s := upcAfter_pre_congr s rfl rfl
    have hlc (bus : Word) : lcNext { m with alu := code } bus s = lcNext m bus s :=
      lcNext_congr bus s rfl (imm8_congr rfl rfl)
    rw [hpath, microCycle_normal { m with alu := code } s hlit]
    apply State.eq_of_fields <;> simp [hbus, hupc, hlc, aluRegs]

/-- Settles O58: one of the two words is the other with its ALU code replaced. -/
theorem aluCodeReachesOnlyAluResults : Obligations.AluCodeReachesOnlyAluResults := by
  intro i j s t u hmicro hi hj
  rw [eq_microCycle_of_exec hi, eq_microCycle_of_exec hj, hmicro]
  exact microCycle_with_alu j.micro i.micro.alu s

/-! ## The two flag views (D4, log 7) -/

/-- The flag view reaches the next address alone (R160). -/
theorem microCycleWith_congr_view (m : Micro) (s : State) (h : upcAfter .pre m s = upcAfter .post m s) :
    microCycleWith .pre m s = microCycleWith .post m s := by
  by_cases hlit : m.tb = .lit
  · rw [microCycleWith_lit _ _ _ hlit, microCycleWith_lit _ _ _ hlit]
  · rw [microCycleWith_normal _ _ _ hlit, microCycleWith_normal _ _ _ hlit]
    apply State.eq_of_fields <;> simp [h]

/-- Settles O59: the one flag the code tests is the ALU's input and its output at once. -/
theorem flagViewsAgree : Obligations.FlagViewsAgree := by
  intro m s hzn hc ho
  apply microCycleWith_congr_view
  have htest : jumpTest m.seq (seqFlags .pre (aluStage m s) s) = jumpTest m.seq (seqFlags .post (aluStage m s) s) := by
    cases hseq : m.seq with
    | next | k1 | k2 | zero | jmp | call | ret | halt | jl => rfl
    | jz =>
      have ⟨hz, _⟩ := alu_zn m.alu (busSource m s) (aluRegs s) (hzn (.inl hseq))
      exact congrArg some hz.symm
    | jnz =>
      have ⟨hz, _⟩ := alu_zn m.alu (busSource m s) (aluRegs s) (hzn (.inr (.inl hseq)))
      exact congrArg (some !·) hz.symm
    | jn =>
      have ⟨_, hn⟩ := alu_zn m.alu (busSource m s) (aluRegs s) (hzn (.inr (.inr hseq)))
      exact congrArg some hn.symm
    | jc => exact congrArg some (alu_c m.alu (busSource m s) (aluRegs s) (hc (.inl hseq))).symm
    | jnc => exact congrArg (some !·) (alu_c m.alu (busSource m s) (aluRegs s) (hc (.inr hseq))).symm
    | jo => exact congrArg some (alu_o m.alu (busSource m s) (aluRegs s) (ho (.inl hseq))).symm
    | jno => exact congrArg (some !·) (alu_o m.alu (busSource m s) (aluRegs s) (ho (.inr hseq))).symm
  exact congrArg State.upc (sequencer_congr_flags s s htest)

/-! ## The host (R47, R211, R236) -/

/-- A program-memory write keeps the four memories canonical. -/
theorem memoryWf_setPmCell {s : State} (h : s.memoryWf = true) (a : Byte) (v : Word) :
    (setPmCell a v s).memoryWf = true := by
  obtain ⟨hpm, hcs, hk1, hk2⟩ := (State.memoryWf_iff s).mp h
  exact (State.memoryWf_iff _).mpr ⟨Memory.wf_write hpm a.isLt, hcs, hk1, hk2⟩

/-- A host write is what a host read of that cell gives, and of no other. -/
theorem hostReadPm_hostWritePm {s : State} (h : s.memoryWf = true) (a b : Byte) (v : Word) :
    hostReadPm b (hostWritePm a v s) = if a = b then v else hostReadPm b s := by
  rw [hostReadPm, hostWritePm, readPm, setPmCell_pm, Memory.read_write_of_wf (State.pm_wf h)]
  simp only [BitVec.toNat_inj]
  rfl

/-- No step writes CS, K1 or K2 (R41 to R43) or clears the halt latch (R83). -/
theorem step_frame {s t : State} (h : step s = .next t) :
    t.cs = s.cs ∧ t.k1 = s.k1 ∧ t.k2 = s.k2 ∧ (s.halted = true → t.halted = true) := by
  obtain ⟨-, hstep⟩ | ⟨-, -, hstep⟩ | ⟨hrun, -, hstep⟩ := step_cases s <;> rw [hstep] at h
  · cases h
    exact ⟨rfl, rfl, rfl, id⟩
  · cases h
  · cases h
    exact ⟨microCycle_cs .., microCycle_k1 .., microCycle_k2 .., fun hhalt => absurd (hrun.symm.trans hhalt) nofun⟩

/-- Settles O60, action by action. -/
theorem hostActions : Obligations.HostActions := by
  constructor
  · intro a v s hwf
    exact ⟨_, rfl, (hostReadPm_hostWritePm hwf a a v).trans (if_pos rfl),
      fun b hb => (hostReadPm_hostWritePm hwf a b v).trans (if_neg hb.symm), rfl, memoryWf_setPmCell hwf a v⟩
  · intro act s t hact
    cases act with
    | load img x => exact .inl ⟨img, x, rfl⟩
    | step => exact .inr (step_frame hact)
    | writePm a v => cases hact; exact .inr ⟨rfl, rfl, rfl, id⟩

end Sys2Proof.Machine
end
section
/-! PROOFS. Rules of whole runs (spec/70_reset_and_hazards.md R213, R221 to R223): what every step keeps, and the runs
that follow from it. -/

namespace Sys2Proof.Machine

open Sys2Proof.Safety

/-! ## The invariant (R125, R213) -/

/-- A micro-cycle keeps the four memories canonical. -/
theorem microCycle_memoryWf (m : Micro) {s : State} (h : s.memoryWf = true) : (microCycle m s).memoryWf = true := by
  obtain ⟨hpm, hcs, hk1, hk2⟩ := (State.memoryWf_iff s).mp h
  rw [State.memoryWf_iff, microCycle_pm, microCycle_cs, microCycle_k1, microCycle_k2]
  refine ⟨?_, hcs, hk1, hk2⟩
  split
  · exact Memory.wf_write hpm s.asr.isLt
  · exact hpm

/-- A micro-cycle keeps L in agreement with LC: a literal one leaves both, a normal one computes L from LC (R125). -/
theorem microCycle_loopFlagAgrees (m : Micro) {s : State} (h : LoopFlagAgrees s) : LoopFlagAgrees (microCycle m s) := by
  obtain ⟨-, hpath⟩ | ⟨-, hpath⟩ := microCycle_cases m s <;> rw [LoopFlagAgrees, hpath]
  · exact h
  · rw [normalPath_l, normalPath_lc, flagL]

/-- The one value uSP can take is the uPC of the cycle (R167). -/
theorem microCycle_usp_cases (m : Micro) (s : State) :
    (microCycle m s).usp = s.usp ∨ (microCycle m s).usp = s.upc := by
  obtain ⟨-, hpath⟩ | ⟨-, hpath⟩ := microCycle_cases m s <;> rw [hpath]
  · exact .inl rfl
  · rw [normalPath_usp]
    split
    · exact .inr rfl
    · exact .inl rfl

/-- A micro-cycle at an address of the control store keeps uSP in the control store. -/
theorem microCycle_returnInRange (m : Micro) {s : State} (hupc : s.upc.toNat < csSize) (h : ReturnInRange s) :
    ReturnInRange (microCycle m s) := by
  obtain husp | husp := microCycle_usp_cases m s <;> rw [ReturnInRange, husp] <;> assumption

/-- Settles O54: a step is the state itself or a micro-cycle at an address in range. -/
theorem stepKeepsInvariant : Obligations.StepKeepsInvariant := by
  intro s t hinv h
  obtain ⟨-, hstep⟩ | ⟨-, -, hstep⟩ | ⟨-, hrange, hstep⟩ := step_cases s <;> rw [hstep] at h
  · cases h
    exact hinv
  · cases h
  · obtain ⟨hwf, hl, husp⟩ := hinv
    cases h
    exact ⟨microCycle_memoryWf _ hwf, microCycle_loopFlagAgrees _ hl,
      microCycle_returnInRange _ ((upcInRange_iff s).mp hrange) husp⟩

/-! ## The loader's contract (R213) -/

/-- A conditional jump from an address below 127 lands in the control store. -/
theorem jumpsTo_lt (b : Bool) (adr : BitVec 7) {s : State} (h : s.upc.toNat < 127) : jumpsTo b adr s < csSize := by
  have hadr := adr.isLt
  simp only [csSize, jumpsTo]
  split <;> omega

/-- Every path by which a value reaches uPC stays in the control store: uSP and the table entries by the contract, ADR
by its width, and uPC + 1 where the word at 127 does not fall through. -/
theorem upcAfter_lt (view : FlagView) {m : Micro} {s : State} (hlit : m.tb ≠ .lit) (husp : ReturnInRange s)
    (hk1 : ∀ i, (readK1 i s).toNat < csSize) (hk2 : ∀ i, (readK2 i s).toNat < csSize)
    (hnext : NoFallThrough m ∨ s.upc.toNat < 127) : (upcAfter view m s).toNat < csSize := by
  cases hseq : m.seq with
  | next =>
    have hupc : s.upc.toNat < 127 := hnext.resolve_left (by simp [NoFallThrough, hlit, hseq])
    rw [upcAfter_of_next view s hseq, toNat_upcNext]
    simp only [csSize]
    omega
  | k1 => rw [← normalPath_upc, normalPath_upc_of_k1 view s hseq]; exact hk1 _
  | k2 => rw [← normalPath_upc, normalPath_upc_of_k2 view s hseq]; exact hk2 _
  | zero => rw [toNat_upcAfter_of_zero view s hseq]; decide
  | jmp => rw [toNat_upcAfter_of_jmp_or_call view s (.inl hseq)]; exact m.adr.isLt
  | call => rw [toNat_upcAfter_of_jmp_or_call view s (.inr hseq)]; exact m.adr.isLt
  | ret => rw [upcAfter_of_ret view s hseq]; exact husp
  | halt => rw [upcAfter_of_halt view s hseq]; decide
  | jnz | jz | jn | jc | jo | jl | jnc | jno =>
    have hupc : s.upc.toNat < 127 := hnext.resolve_left (by simp [NoFallThrough, hlit, hseq])
    rw [toNat_upcAfter_of_jumpTest view (congrArg (jumpTest · _) hseq)]
    exact jumpsTo_lt _ _ hupc

/-- The micro-cycle of the fetched word keeps the contract. -/
theorem microCycle_loaderContract {s : State} (h : LoaderContract s) :
    LoaderContract (microCycle (decodeMicro (fetchWord s)) s) := by
  obtain ⟨hupc, husp, hk1, hk2, hlast⟩ := h
  refine ⟨?upc, microCycle_returnInRange _ hupc husp, fun i => ?k1, fun i => ?k2, ?last⟩
  case upc =>
    obtain ⟨-, hpath⟩ | ⟨hlit, hpath⟩ := microCycle_cases (decodeMicro (fetchWord s)) s <;> rw [hpath]
    · exact hupc
    · have hnext : NoFallThrough (decodeMicro (fetchWord s)) ∨ s.upc.toNat < 127 := by
        by_cases h127 : s.upc.toNat = 127
        · exact .inl (by rw [fetchWord, h127]; exact hlast)
        · exact .inr (by simp only [csSize] at hupc; omega)
      rw [normalPath_upc]
      exact upcAfter_lt .pre hlit husp hk1 hk2 hnext
  case k1 => rw [readK1, microCycle_k1]; exact hk1 i
  case k2 => rw [readK2, microCycle_k2]; exact hk2 i
  case last => rw [microCycle_cs]; exact hlast

/-- A step from a state that meets the contract answers one that meets it. -/
theorem step_loaderContract {s : State} (h : LoaderContract s) : ∃ t, step s = .next t ∧ LoaderContract t := by
  have ⟨hupc, _⟩ := h
  cases hrun : s.halted with
  | true => exact ⟨s, step_of_halted hrun, h⟩
  | false => exact ⟨_, step_eq_microCycle hrun hupc, microCycle_loaderContract h⟩

/-- Where each step from a state with `P n` answers one with `P (n + 1)`, a run of `k` steps answers one with
`P (n + k)`. -/
theorem run_of_step_invariant {M : Host.Core} {P : Nat → M.State → Prop}
    (hstep : ∀ n s, P n s → ∃ t, M.step s = .next t ∧ P (n + 1) t) {n : Nat} {s : M.State} (hs : P n s) (k : Nat) :
    ∃ t, M.run k s = .next t ∧ P (n + k) t := by
  induction k generalizing n s with
  | zero => exact ⟨s, rfl, hs⟩
  | succ k ih =>
    obtain ⟨t, hst, ht⟩ := hstep n s hs
    rw [run_succ_of_step_next hst, ← Nat.succ_add_eq_add_succ]
    exact ih ht

/-- Settles O55: the contract is an invariant of the step, under which the step answers. -/
theorem loaderContractRunsWithoutFault : Obligations.LoaderContractRunsWithoutFault :=
  fun _ k h => run_of_step_invariant (M := Sys2Proof.core) (P := fun _ => LoaderContract) (n := 0)
    (fun _ _ => step_loaderContract) h k

/-! ## The literal-mode stall (R221) -/

/-- What holds after `n` steps of a stall that began in `s` (R221). -/
def StalledFrom (s : State) (n : Nat) (t : State) : Prop :=
  OnlyAluChanged s t ∧ t.cycleCount = s.cycleCount + n

theorem onlyAluChanged_refl (s : State) : OnlyAluChanged s s :=
  ⟨rfl, rfl, ⟨rfl, rfl, rfl, rfl⟩, rfl, rfl, rfl, rfl, rfl, rfl, rfl, rfl, rfl, rfl⟩

theorem onlyAluChanged_trans {s t u : State} (hst : OnlyAluChanged s t) (htu : OnlyAluChanged t u) :
    OnlyAluChanged s u := by
  simp only [OnlyAluChanged, GrKept] at *
  simp [*]

/-- The fetch depends on nothing that a literal cycle changes. -/
theorem fetchWord_of_onlyAluChanged {s t : State} (h : OnlyAluChanged s t) : fetchWord t = fetchWord s := by
  obtain ⟨-, -, -, -, hupc, -, -, -, -, -, hcs, -, -⟩ := h
  rw [fetchWord, fetchWord, hupc, hcs]

/-- A stalled core fetches the same literal word again, and its step is one more step of the stall. -/
theorem step_stalledFrom {s : State} (hrun : s.halted = false) (hupc : s.upc.toNat < csSize)
    (hlit : (decodeMicro (fetchWord s)).tb = .lit) (n : Nat) (t : State) (h : StalledFrom s n t) :
    ∃ u, step t = .next u ∧ StalledFrom s (n + 1) u := by
  obtain ⟨honly, hcount⟩ := h
  have ⟨_, _, _, _, htupc, _, _, _, hthalted, _⟩ := honly
  have hstep : step t = .next (literalPath (decodeMicro (fetchWord s)) t) := by
    rw [step_eq_microCycle (hthalted.trans hrun) (htupc ▸ hupc), fetchWord_of_onlyAluChanged honly,
      microCycle_lit _ _ hlit]
  refine ⟨_, hstep, onlyAluChanged_trans honly (literalPath_onlyAluChanged ..), ?_⟩
  rw [literalPath_cycleCount, hcount, Nat.add_assoc]

/-- Settles O56: the stall is an invariant of the step. -/
theorem literalWordStallsForever : Obligations.LiteralWordStallsForever := by
  intro s k hrun hupc hlit
  obtain ⟨t, hstep, honly, hcount⟩ := run_of_step_invariant (M := Sys2Proof.core) (P := StalledFrom s) (n := 0)
    (step_stalledFrom hrun (Nat.lt_succ_of_le hupc) hlit) ⟨onlyAluChanged_refl s, rfl⟩ k
  rw [Nat.zero_add] at hcount
  exact ⟨t, hstep, honly, fetchWord_of_onlyAluChanged honly, hcount⟩

/-! ## CALL and RET (R222, R223) -/

/-- A running core in range, at a word outside literal mode, takes that word's normal path. -/
theorem step_eq_normalPath {s : State} {m : Micro} (hrun : s.halted = false) (hupc : s.upc.toNat < csSize)
    (hfetch : decodeMicro (fetchWord s) = m) (hlit : m.tb ≠ .lit) : step s = .next (normalPath .pre m s) := by
  rw [step_eq_microCycle hrun hupc, hfetch, microCycle_normal _ _ hlit]

/-- Settles O57: the CALL word is the first step, and the second, at its ADR, sees the saved address in uSP. -/
theorem callThenReturnLandsOnCall : Obligations.CallThenReturnLandsOnCall := by
  intro s hrun hupc m r hlit hseq hrlit
  obtain ⟨htupc, htusp, hthalted⟩ := normalPath_seqResult_of_call .pre (m := m) (s := s) hseq
  rw [toNat_upcAfter_of_jmp_or_call .pre s (.inr hseq)] at htupc
  have hfirst : step s = .next (normalPath .pre m s) := step_eq_normalPath hrun (Nat.lt_succ_of_le hupc) rfl hlit
  have hfetch : decodeMicro (fetchWord (normalPath .pre m s)) = r := by rw [fetchWord, htupc, normalPath_cs]
  have hsecond : step (normalPath .pre m s) = .next (normalPath .pre r (normalPath .pre m s)) :=
    step_eq_normalPath (hthalted.trans hrun) (htupc ▸ m.adr.isLt) hfetch hrlit
  have hrun2 : Sys2Proof.core.run 2 s = .next (normalPath .pre r (normalPath .pre m s)) :=
    (run_succ_of_step_next (M := Sys2Proof.core) hfirst 1).trans
      (run_succ_of_step_next (M := Sys2Proof.core) hsecond 0)
  refine ⟨fun hret => ⟨_, hrun2, ?ret⟩, fun hcall => ⟨_, hrun2, ?call⟩⟩
  case ret =>
    have hupc' : (normalPath .pre r (normalPath .pre m s)).upc = s.upc := by
      rw [normalPath_upc, upcAfter_of_ret .pre _ hret, htusp]
    refine ⟨hupc', ?usp, ?fetch⟩
    case usp => rw [normalPath_usp, if_neg (by simp [hret]), htusp]
    case fetch => rw [fetchWord, fetchWord, hupc', normalPath_cs, normalPath_cs]
  case call => rw [normalPath_usp, if_pos hcall, htupc]

end Sys2Proof.Machine
end
